-- ==== Sys2Proof/Word.lean ====
section
/-! DEFINITION. The word types of PRS: bytes of host memory, 32-bit registers, 64-bit addresses. -/

namespace Sys2Proof

/-- One byte of host memory (R60, R62). -/
abbrev Byte := BitVec 8

/-- One register of the register block: "All registers are 32 bits wide" (10_state.md section 2). -/
abbrev Word := BitVec 32

/-- A host-memory byte address, ADDR_W = 64 (R9). -/
abbrev Addr := BitVec 64

end Sys2Proof
end

