-- ==== Sys2Proof/Syntax.lean ====
section
/-! DEFINITION. The instructions of PRS (R3): the host commands of the CMD word and the internal operations of the
sub-units (R88), one constructor per row of spec/opcode_table.json. -/

namespace Sys2Proof

/-- FilterMode (R82), in the order of its codes 0 to 3. -/
inductive FilterMode where
  | none
  | linear
  | bilinear
  | box
  deriving DecidableEq, Repr

/-- SW, the sample width a kernel works at (R6). -/
inductive SampleWidth where
  | w8
  | w16
  deriving DecidableEq, Repr

/-- The four scaling commands (R81), which fix the sample widths and the dispatch of a path (R265). -/
inductive ScaleOp where
  | scale8
  | scale16
  | scale12
  | scale16to8
  deriving DecidableEq, Repr

/-- A row of samples given by value: the integers `s[0], s[1], …` of a kernel rule (42_row_kernels.md). -/
abbrev Row := List Nat

/-- The parameter registers as a command reads them (R43, R83): bases joined to 64 bits, SCALE to its 16 bits. -/
structure Planes where
  srcBase : BitVec 64
  srcStride : BitVec 32
  srcW : BitVec 32
  srcH : BitVec 32
  dstBase : BitVec 64
  dstStride : BitVec 32
  dstW : BitVec 32
  dstH : BitVec 32
  scale : BitVec 16
  deriving DecidableEq, Repr

/-- One constructor per row of the opcode table. -/
inductive Instr where
  -- host commands (44_commands.md)
  | nop (f : FilterMode)
  | scale8 (f : FilterMode)
  | scale16 (f : FilterMode)
  | scale12 (f : FilterMode)
  | scale16to8 (f : FilterMode)
  -- reserved OP codes (R84, R268)
  | illegalOp5 (f : FilterMode)
  | illegalOp67 (f : FilterMode) (o : BitVec 1)
  | illegalOp8F (f : FilterMode) (o : BitVec 3)
  -- fixed_point_coordinate_stepper (40_fixed_point.md)
  | fxDiv (num den : Nat)
  | fxDiv1 (num den : Nat)
  | fxCenter (d s : Int)
  | fxSlope (srcW srcH dstW dstH : Int) (m : FilterMode)
  -- fast_path_ratio_selector (41_filter_reduce_dispatch.md)
  | frReduce (srcW srcH dstW dstH : Int) (m : FilterMode)
  | frSelect (srcW srcH dstW dstH : Int) (f : FilterMode)
  | frSelect12 (srcW srcH dstW dstH : Int) (f : FilterMode)
  -- row_sampler_bank (42_row_kernels.md)
  | kNarrow (v scale : Nat)
  | kDown2Point (sw : SampleWidth) (s : Row) (n : Nat)
  | kDown2Linear (sw : SampleWidth) (s : Row) (n : Nat)
  | kDown2Box (sw : SampleWidth) (s t : Row) (n : Nat)
  | kDown4Point (sw : SampleWidth) (s : Row) (n : Nat)
  | kDown4Box (sw : SampleWidth) (s0 s1 s2 s3 : Row) (n : Nat)
  | kDown34Point (sw : SampleWidth) (s : Row) (n : Nat)
  | kDown34H (sw : SampleWidth) (s : Row) (g : Nat)
  | kDown34Box0 (sw : SampleWidth) (s t : Row) (n : Nat)
  | kDown34Box1 (sw : SampleWidth) (s t : Row) (n : Nat)
  | kDown38Point (sw : SampleWidth) (s : Row) (n : Nat)
  | kDown38Box3 (sw : SampleWidth) (s t u : Row) (n : Nat)
  | kDown38Box2 (sw : SampleWidth) (s t : Row) (n : Nat)
  | kUp2LinearCore (sw : SampleWidth) (s : Row) (p : Nat) (d : Row) (o : Nat)
  | kUp2Linear (sw : SampleWidth) (s : Row) (n : Nat)
  | kUp2BilinearCore (sw : SampleWidth) (s t : Row) (p : Nat) (d e : Row) (o : Nat)
  | kUp2Bilinear (sw : SampleWidth) (s t : Row) (n : Nat)
  | kColsPoint (sw : SampleWidth) (s : Row) (n : Nat) (x dx : Int)
  | kColsBlend8 (s : Row) (n : Nat) (x dx : Int)
  | kColsBlend16 (s : Row) (n : Nat) (x dx : Int)
  | kInterp (sw : SampleWidth) (s t : Row) (n : Nat) (f8 : BitVec 8)
  | kAddrow (sw : SampleWidth) (s acc : Row) (w : Nat)
  | kAddcols (sw : SampleWidth) (acc : Row) (bh n : Nat) (x dx : Int)
  | kBoxdiv (sw : SampleWidth) (sum sc : Nat)
  -- plane paths (43_plane_paths.md); `op` fixes the widths, `pl` is the latched plane pair, `m` the effective mode
  | pCopy (op : ScaleOp) (pl : Planes) (m : FilterMode)
  | pVertical (op : ScaleOp) (pl : Planes) (m : FilterMode)
  | pDown34 (op : ScaleOp) (pl : Planes) (m : FilterMode)
  | pDown2 (op : ScaleOp) (pl : Planes) (m : FilterMode)
  | pDown38 (op : ScaleOp) (pl : Planes) (m : FilterMode)
  | pDown4 (op : ScaleOp) (pl : Planes) (m : FilterMode)
  | pBox (op : ScaleOp) (pl : Planes) (m : FilterMode)
  | pUp2Linear (op : ScaleOp) (pl : Planes) (m : FilterMode)
  | pUp2Bilinear (op : ScaleOp) (pl : Planes) (m : FilterMode)
  | pBilinearUp (op : ScaleOp) (pl : Planes) (m : FilterMode)
  | pBilinearDown (op : ScaleOp) (pl : Planes) (m : FilterMode)
  | pSimple (op : ScaleOp) (pl : Planes) (m : FilterMode)
  | pUp2Linear12 (pl : Planes) (m : FilterMode)
  | pUp2Bilinear12 (pl : Planes) (m : FilterMode)
  deriving DecidableEq, Repr

end Sys2Proof
end

