-- ==== Sys2Proof/Decode.lean ====
section
/-! DEFINITION. The CMD word (30_encoding.md): decoding of any 32-bit word, rejecting by name, and after it the encoder. The
internal operations are not host-encodable (R88), so no word decodes to one and none has a word. -/

namespace Sys2Proof

/-- The FilterMode of a 2-bit code (R82): all four values are legal. -/
def filterOfBits (b : BitVec 2) : FilterMode :=
  match b.toNat with
  | 0 => .none
  | 1 => .linear
  | 2 => .bilinear
  | _ => .box

/-- The code of a FilterMode (R82). -/
def filterBits : FilterMode → BitVec 2
  | .none => 0#2
  | .linear => 1#2
  | .bilinear => 2#2
  | .box => 3#2

/-- OP, bits 3:0 of the command word (R80). -/
def cmdOp (w : Word) : BitVec 4 := w.extractLsb' 0 4

/-- FILTER, bits 5:4 of the command word (R80). -/
def cmdFilter (w : Word) : BitVec 2 := w.extractLsb' 4 2

/-- RSV, bits 30:6 of the command word (R80). -/
def cmdRsv (w : Word) : BitVec 25 := w.extractLsb' 6 25

/-- START, bit 31 of the command word (R80). -/
def cmdStart (w : Word) : Bool := w.getLsbD 31

/-- Why a word is no instruction. -/
inductive Reject where
  /-- START = 0: "not a command and has no effect" (R80). -/
  | startClear
  /-- RSV ≠ 0: ERR_CMD (R84 step 1). -/
  | reservedBits
  deriving DecidableEq, Repr

/-- The instruction of an OP code (R81); 0x5 to 0xF are the reserved commands (R84 step 2). -/
def decodeOp (op : BitVec 4) (f : FilterMode) : Instr :=
  match op.toNat with
  | 0 => .nop f
  | 1 => .scale8 f
  | 2 => .scale16 f
  | 3 => .scale12 f
  | 4 => .scale16to8 f
  | 5 => .illegalOp5 f
  | 6 => .illegalOp67 f 0#1
  | 7 => .illegalOp67 f 1#1
  | _ => .illegalOp8F f (op.extractLsb' 0 3)

/-- Decoding of a word written to CMD, in the order of R84. -/
def decode (w : Word) : Except Reject Instr :=
  if cmdStart w = false then .error .startClear
  else if cmdRsv w ≠ 0#25 then .error .reservedBits
  else .ok (decodeOp (cmdOp w) (filterOfBits (cmdFilter w)))

/-- The instruction of a table row's bits; a CMD word is always one 32-bit word (R80), so a longer row has none. -/
def decodeTableWord (nbits w : Nat) : Option Instr :=
  if nbits ≤ 32 then
    match decode (BitVec.ofNat 32 (w % 2 ^ nbits)) with
    | .ok i => some i
    | .error _ => none
  else none

/-- The command word of an OP code and a filter: START = 1, RSV = 0 (R80). -/
def commandWord (op : BitVec 4) (f : FilterMode) : Word :=
  1#1 ++ 0#25 ++ filterBits f ++ op

/-- The command word of an instruction, none for an internal operation (R80, R81, R88). -/
def encode : Instr → Option Word
  | .nop f => some (commandWord 0#4 f)
  | .scale8 f => some (commandWord 1#4 f)
  | .scale16 f => some (commandWord 2#4 f)
  | .scale12 f => some (commandWord 3#4 f)
  | .scale16to8 f => some (commandWord 4#4 f)
  | .illegalOp5 f => some (commandWord 5#4 f)
  | .illegalOp67 f o => some (commandWord (3#3 ++ o) f)
  | .illegalOp8F f o => some (commandWord (1#1 ++ o) f)
  | .fxDiv .. | .fxDiv1 .. | .fxCenter .. | .fxSlope .. => none
  | .frReduce .. | .frSelect .. | .frSelect12 .. => none
  | .kNarrow .. | .kDown2Point .. | .kDown2Linear .. | .kDown2Box .. | .kDown4Point .. | .kDown4Box .. => none
  | .kDown34Point .. | .kDown34H .. | .kDown34Box0 .. | .kDown34Box1 .. => none
  | .kDown38Point .. | .kDown38Box3 .. | .kDown38Box2 .. => none
  | .kUp2LinearCore .. | .kUp2Linear .. | .kUp2BilinearCore .. | .kUp2Bilinear .. => none
  | .kColsPoint .. | .kColsBlend8 .. | .kColsBlend16 .. | .kInterp .. => none
  | .kAddrow .. | .kAddcols .. | .kBoxdiv .. => none
  | .pCopy .. | .pVertical .. | .pDown34 .. | .pDown2 .. | .pDown38 .. | .pDown4 .. | .pBox .. => none
  | .pUp2Linear .. | .pUp2Bilinear .. | .pBilinearUp .. | .pBilinearDown .. | .pSimple .. => none
  | .pUp2Linear12 .. | .pUp2Bilinear12 .. => none

end Sys2Proof
end

