-- ==== Sys2Proof/Config.lean ====
section
/-! DEFINITION. The model parameters of PRS (00_scope.md section 3, R332) as plain data, and the free values: constants
without a body that stand for every value the spec leaves unspecified. -/

namespace Sys2Proof

/-- BOX_ROUND (R10): the rounding of the general box division. -/
inductive BoxRound where
  | nearest
  | truncate
  deriving DecidableEq, Repr

/-- BLEND8 (R11): the precision of the 8-bit two-tap blend. -/
inductive Blend8 where
  | bits7
  | bits16
  deriving DecidableEq, Repr

/-- The parameters that are fixed when an instance of PRS is built (R332): no step and no reset changes them.
DESIGN CHOICE (log 1): they stand in `State` so that one `exec` covers every instance. -/
structure Config where
  /-- MAX_DIM (R7). A value above 32768 is not supported by the spec (U23), so the type excludes it. -/
  maxDim : Fin 32769
  /-- SCRATCH_BYTES (R8). -/
  scratchBytes : Nat
  /-- BOX_ROUND (R10). -/
  boxRound : BoxRound
  /-- BLEND8 (R11). -/
  blend8 : Blend8
  /-- MEM_VALID (R61): the half-open address ranges where it is false; everywhere else it is true. -/
  holes : List (Nat × Nat)
  /-- RB, the base of the register block in the platform's register space (R72). DESIGN CHOICE (log 24): its width, and
  that of the space, is 64 bits; the spec gives RB none. -/
  regBase : BitVec 64
  deriving DecidableEq, Repr

/-- The defaults every example of the spec assumes (95_test_vectors.md); MEM_VALID is true everywhere and RB is 0
(log 2). -/
def Config.default : Config where
  maxDim := ⟨32768, by decide⟩
  scratchBytes := 131072
  boxRound := .nearest
  blend8 := .bits7
  holes := []
  regBase := 0#64

/-- The byte at an address of a destination footprint that a rule calls "unspecified (any value per byte)" (R267, R73,
R330); the first argument tells one such event from another (log 4). -/
opaque Config.freeByte : Nat → Nat → BitVec 8

/-- The value a host read of the destination footprint returns during BUSY: "unspecified (any value)" (R73, U16). -/
opaque Config.freeRead : Nat → BitVec 8

/-- The contents of the scratch row store, "unspecified" at reset and between commands (R40, U20): the first argument is
the generation of the contents, the second the byte's index. -/
opaque Config.scratchByte : Nat → Nat → BitVec 8

/-- FixedDiv(num, den) for num < 0 or den < 0, outside the operand domain of R100: the rule states no quotient there
(log 21). A 32-bit value, as every result of FixedDiv. -/
opaque Config.freeQuotient : Int → Int → BitVec 32

/-- FixedDiv1(num, den) for num < 1, outside the operand domain of R102: the rule states no quotient there (log 21). -/
opaque Config.freeEndQuotient : Int → Int → BitVec 32

/-- Output sample j of K.ADDCOLS for the column sum S, the box height bh and the step dx, where R186 gives the sum no
reciprocal: bh = 0, or a negative fractional dx (log 22). The arguments are S, bh, dx and j. -/
opaque Config.freeBoxSample : Nat → Nat → Int → Nat → BitVec 16

end Sys2Proof
end

