-- ==== Sys2Proof/Machine/State.lean ====
section
/-! DEFINITION. The state of PRS (10_state.md) as plain data, its reset value, and the reasons a step can stop. -/

namespace Sys2Proof.Machine

/-- The error codes of STATUS.ERR (R86); "no error" is the absence of one. -/
inductive Err where
  | cmd
  | dim
  | scale
  | alloc
  | oob
  | overlap
  | range12
  | mirrorBox
  | align
  | bus
  deriving DecidableEq, Repr

/-- The path codes of STATUS.PATH (R85); "NONE" is the absence of one. -/
inductive PathCode where
  | copy
  | vertical
  | down34
  | down2
  | down38
  | down4
  | box
  | up2Linear
  | up2Bilinear
  | bilinearUp
  | bilinearDown
  | simple
  | up2Linear12
  | up2Bilinear12
  deriving DecidableEq, Repr

/-- A ScaleStep `(x0, y0, dx, dy)` in 16.16 fixed point, exact integers (R13, R38, R106). -/
structure ScaleStep where
  x : Int
  y : Int
  dx : Int
  dy : Int
  deriving DecidableEq, Repr

/-- The result of dispatch (R140): the path, the effective mode, and the resolved source orientation (vertical mirror and
the positive height H of R142). -/
structure Selection where
  path : PathCode
  mode : FilterMode
  flipped : Bool
  height : Nat
  deriving DecidableEq, Repr

/-- What the last internal operation (FX, FR, K) answered. DESIGN CHOICE (log 5): the spec gives these operations a result
and no architectural place for it; this port is the model's own. -/
inductive OpResult where
  | empty
  | number (v : Int)
  | step (st : ScaleStep)
  | mode (m : FilterMode)
  | selection (sel : Selection)
  | row (d : Row)
  | rowPair (d e : Row)
  deriving DecidableEq, Repr

/-- The command latched at START (R42, R43): its code, filter and reserved bits, and a copy of every parameter
register. START itself is 1 in every latched word. -/
structure Latched where
  op : BitVec 4
  filter : BitVec 2
  rsv : BitVec 25
  planes : Planes
  deriving DecidableEq, Repr

/-- The engine phase (R42). STATUS.BUSY is the view "the phase is Busy". `disturbed` records that the host broke its duty
of R73 (a write into a footprint of the running command). -/
inductive Phase where
  | idle
  | busy (cmd : Latched) (disturbed : Bool)
  deriving DecidableEq, Repr

/-- What the outside world does to PRS: 32-bit register accesses at an address of the register space (R60, R340), byte
accesses of the host to host memory (R73), and the reset input (R330). DESIGN CHOICE (log 24): an address of the register
space has 64 bits, which the spec says of host memory only (R9, R60). -/
inductive HostAction where
  | regRead (addr : BitVec 64)
  | regWrite (addr : BitVec 64) (v : BitVec 32)
  | memRead (addr : BitVec 64)
  | memWrite (addr : BitVec 64) (v : BitVec 8)
  | reset
  deriving DecidableEq, Repr

/-- The order in which host accesses and the engine step interleave (R340, R342): which of the two moves next. -/
inductive Event where
  | engine
  | host (a : HostAction)
  deriving DecidableEq, Repr

/-- Host memory: the listed bytes, by address (R60). Its canonical form is `Memory.wf` (Machine/Ops.lean). -/
abbrev Memory := List Host.Cell

/-- The machine. -/
structure State where
  /-- The model parameters of the instance (R332); fixed (log 1). -/
  cfg : Config
  /-- SRC_BASE_LO, 0x08 (R22). -/
  srcBaseLo : BitVec 32
  /-- SRC_BASE_HI, 0x0C (R22). -/
  srcBaseHi : BitVec 32
  /-- SRC_STRIDE, 0x10 (R23). -/
  srcStride : BitVec 32
  /-- SRC_W, 0x14 (R24). -/
  srcW : BitVec 32
  /-- SRC_H, 0x18 (R25). -/
  srcH : BitVec 32
  /-- DST_BASE_LO, 0x20 (R26). -/
  dstBaseLo : BitVec 32
  /-- DST_BASE_HI, 0x24 (R26). -/
  dstBaseHi : BitVec 32
  /-- DST_STRIDE, 0x28 (R27). -/
  dstStride : BitVec 32
  /-- DST_W, 0x2C (R28). -/
  dstW : BitVec 32
  /-- DST_H, 0x30 (R29). -/
  dstH : BitVec 32
  /-- SCALE[15:0], 0x34; its upper half reads 0 and ignores writes (R30). -/
  scale : BitVec 16
  /-- STATUS.DONE, bit 1 (R33). -/
  done : Bool
  /-- STATUS.ERR, bits 7:4 (R33, R86). -/
  err : Option Err
  /-- STATUS.PATH, bits 12:8 (R33, R85). -/
  path : Option PathCode
  /-- STATUS.EFF_FILTER, bits 14:13 (R33). -/
  effFilter : FilterMode
  /-- STEP_X, 0x38 (R38). -/
  stepX : BitVec 32
  /-- STEP_Y, 0x3C (R38). -/
  stepY : BitVec 32
  /-- STEP_DX, 0x40 (R38). -/
  stepDX : BitVec 32
  /-- STEP_DY, 0x44 (R38). -/
  stepDY : BitVec 32
  /-- The engine phase with the latched command (R42, R43); STATUS.BUSY is its view. -/
  phase : Phase
  /-- Host memory (R60). -/
  mem : Memory
  /-- The generation of the scratch row store's contents, which are unspecified (R40): byte i of the store is
  `Config.scratchByte scratchGen i`. -/
  scratchGen : Nat
  /-- The model's own: the number of free values used so far (log 4). -/
  free : Nat
  /-- The model's own: the value the last host register read returned (R340). -/
  readData : BitVec 32
  /-- The model's own: the value the last host memory read returned (R73, R74). -/
  memData : BitVec 8
  /-- The model's own: the result of the last internal operation (log 5). -/
  result : OpResult
  /-- The model's own: the host accesses and engine turns still to come, next one first (R342). -/
  pending : List Event
  deriving DecidableEq, Repr

/-- Why the machine stops with a fault. Only host accesses fault: a command reports its errors in STATUS (R300). -/
inductive Fault where
  /-- A host memory access to an address with MEM_VALID false (R61); safe: no such byte exists. Raised by
  `hostMemRead` and `hostMemWrite`. -/
  | hostNoMemory
  /-- A host access of the register block that is not an aligned 32-bit access (10_state.md section 2 gives only aligned
  ones), judged by its offset from RB (log 10); safe: the spec gives it no effect. Raised by `hostRegRead` and
  `hostRegWrite`. -/
  | hostMisaligned
  deriving DecidableEq, Repr

/-- Why an instruction has no next state. None of these can be met by a host command. -/
inductive Refusal where
  /-- No meaning yet. Raised by no arm of `exec`; safe. -/
  | notModelled (mnemonic : String)
  /-- A FixedDiv call with den = 0: "a model refuses it" (R101, U2). Raised by `execFxDiv` and `execFxSlope`; safe. -/
  | fixedDivByZero
  /-- FX.DIV1 with den ≤ 1: "a model error and is refused" (R102, U1). Raised by `execFxDiv1`; safe. -/
  | fixedDiv1Guard
  /-- A path called outside its preconditions (R314, U3). Raised by the meanings of the P operations; safe. -/
  | pathPrecondition
  deriving DecidableEq, Repr

/-- An outcome of this machine. -/
abbrev Result := Host.Outcome State Fault Refusal

/-- The post-reset state (R331, R44): every register 0, phase Idle, the default instance; nothing listed in memory, and
no host access pending (R333). -/
def State.reset : State where
  cfg := Config.default
  srcBaseLo := 0#32
  srcBaseHi := 0#32
  srcStride := 0#32
  srcW := 0#32
  srcH := 0#32
  dstBaseLo := 0#32
  dstBaseHi := 0#32
  dstStride := 0#32
  dstW := 0#32
  dstH := 0#32
  scale := 0#16
  done := false
  err := none
  path := none
  effFilter := .none
  stepX := 0#32
  stepY := 0#32
  stepDX := 0#32
  stepDY := 0#32
  phase := .idle
  mem := []
  scratchGen := 0
  free := 0
  readData := 0#32
  memData := 0#8
  result := .empty
  pending := []

end Sys2Proof.Machine
end

