-- ==== Sys2Proof/Machine/Flags.lean ====
section
/-! DEFINITION. STATUS, the only flags of PRS (R21, R33): the codes of its fields, the word the host reads, and the
transitions of R34. -/

namespace Sys2Proof.Machine

/-- The ERR codes (R86). -/
def errCode : Option Err → BitVec 4
  | none => 0#4
  | some .cmd => 1#4
  | some .dim => 2#4
  | some .scale => 3#4
  | some .alloc => 4#4
  | some .oob => 5#4
  | some .overlap => 6#4
  | some .range12 => 7#4
  | some .mirrorBox => 8#4
  | some .align => 9#4
  | some .bus => 10#4

/-- The PATH codes (R85). -/
def pathCode : Option PathCode → BitVec 5
  | none => 0#5
  | some .copy => 1#5
  | some .vertical => 2#5
  | some .down34 => 3#5
  | some .down2 => 4#5
  | some .down38 => 5#5
  | some .down4 => 6#5
  | some .box => 7#5
  | some .up2Linear => 8#5
  | some .up2Bilinear => 9#5
  | some .bilinearUp => 10#5
  | some .bilinearDown => 11#5
  | some .simple => 12#5
  | some .up2Linear12 => 13#5
  | some .up2Bilinear12 => 14#5

/-- BUSY is 1 exactly in phase Busy (R42). -/
def isBusy (s : State) : Bool :=
  match s.phase with
  | .idle => false
  | .busy _ _ => true

/-- The STATUS word (R33): the reserved fields 3:2 and 31:15 read 0. -/
def statusWord (s : State) : Word :=
  0#17 ++ filterBits s.effFilter ++ pathCode s.path ++ errCode s.err ++ 0#2 ++ BitVec.ofBool s.done ++
    BitVec.ofBool (isBusy s)

/-- What START clears besides setting BUSY: DONE, ERR, PATH, EFF_FILTER (R34) and STEP_* (R38). -/
def clearStatus (s : State) : State :=
  { s with done := false, err := none, path := none, effFilter := .none,
           stepX := 0#32, stepY := 0#32, stepDX := 0#32, stepDY := 0#32 }

/-- STATUS.PATH of the path that runs (R34). -/
def setPath (p : PathCode) (s : State) : State :=
  { s with path := some p }

/-- STATUS.EFF_FILTER after the reduction (R34, R130). -/
def setEffFilter (m : FilterMode) (s : State) : State :=
  { s with effFilter := m }

/-- STEP_* of the path's ScaleStep, as 32-bit copies (R38). -/
def setStep (st : ScaleStep) (s : State) : State :=
  { s with stepX := BitVec.ofInt 32 st.x, stepY := BitVec.ofInt 32 st.y,
           stepDX := BitVec.ofInt 32 st.dx, stepDY := BitVec.ofInt 32 st.dy }

end Sys2Proof.Machine
end

