-- ==== Sys2Proof/Machine/Operands.lean ====
section
/-! DEFINITION. The operands of a command (R83, R265): parameter registers as signed and unsigned integers, latching at
START, and the addresses and footprints of the two planes (20_memory.md). -/

namespace Sys2Proof.Machine

/-- The parameter registers as START copies them (R43): bases are the concatenations of R22 and R26. -/
def registerPlanes (s : State) : Planes where
  srcBase := s.srcBaseHi ++ s.srcBaseLo
  srcStride := s.srcStride
  srcW := s.srcW
  srcH := s.srcH
  dstBase := s.dstBaseHi ++ s.dstBaseLo
  dstStride := s.dstStride
  dstW := s.dstW
  dstH := s.dstH
  scale := s.scale

/-- The command a START word latches (R42, R43). -/
def latch (w : Word) (s : State) : Latched where
  op := cmdOp w
  filter := cmdFilter w
  rsv := cmdRsv w
  planes := registerPlanes s

/-- The START word of a latched command (R80). -/
def latchedWord (c : Latched) : Word :=
  1#1 ++ c.rsv ++ c.filter ++ c.op

/-- The operands a command uses: the latched copies while Busy (R43); while Idle, the registers, which are what START
would latch at that moment. -/
def commandPlanes (s : State) : Planes :=
  match s.phase with
  | .idle => registerPlanes s
  | .busy c _ => c.planes

/-- The scaling command a latched command is, none for NOP and for words that are no command (R81, R84). -/
def latchedScaleOp (c : Latched) : Option ScaleOp :=
  if c.rsv ≠ 0#25 then none
  else if c.op = 1#4 then some .scale8
  else if c.op = 2#4 then some .scale16
  else if c.op = 3#4 then some .scale12
  else if c.op = 4#4 then some .scale16to8
  else none

/-- SW of the path's kernels (R265). -/
def sampleWidth : ScaleOp → SampleWidth
  | .scale8 => .w8
  | .scale16 | .scale12 | .scale16to8 => .w16

/-- B, the bytes of a source sample (R265). -/
def srcBytes : ScaleOp → Nat
  | .scale8 => 1
  | .scale16 | .scale12 | .scale16to8 => 2

/-- Bd, the bytes of a destination sample (R265). -/
def dstBytes : ScaleOp → Nat
  | .scale8 | .scale16to8 => 1
  | .scale16 | .scale12 => 2

/-- W = |SRC_W| (R24). -/
def srcWidth (pl : Planes) : Nat := pl.srcW.toInt.natAbs

/-- H = |SRC_H| (R25). -/
def srcHeight (pl : Planes) : Nat := pl.srcH.toInt.natAbs

/-- DST_W as a count of columns; 0 when the register is not positive (R28). -/
def dstWidth (pl : Planes) : Nat := pl.dstW.toInt.toNat

/-- DST_H as a count of rows; 0 when the register is not positive (R29). -/
def dstHeight (pl : Planes) : Nat := pl.dstH.toInt.toNat

/-- physrow(r): the row in memory order of logical source row r (R64). -/
def physRow (pl : Planes) (r : Nat) : Nat :=
  if 0 < pl.srcH.toInt then r else srcHeight pl - 1 - r

/-- The exact address of column c of the physical source row r (R64). -/
def srcPhysAddr (op : ScaleOp) (pl : Planes) (r c : Nat) : Int :=
  (pl.srcBase.toNat : Int) + ((r : Int) * pl.srcStride.toInt + c) * srcBytes op

/-- SrcAddr(r, c) of R64, an exact integer. -/
def srcAddr (op : ScaleOp) (pl : Planes) (r c : Nat) : Int :=
  srcPhysAddr op pl (physRow pl r) c

/-- DstAddr(r, c) of R66, an exact integer. -/
def dstAddr (op : ScaleOp) (pl : Planes) (r c : Nat) : Int :=
  (pl.dstBase.toNat : Int) + ((r : Int) * pl.dstStride.toInt + c) * dstBytes op

/-- The byte ranges [lo, hi) of the source footprint's rows (R68); a vertical mirror permutes them. -/
def srcSpans (op : ScaleOp) (pl : Planes) : List (Int × Int) :=
  (List.range (srcHeight pl)).map fun r =>
    (srcPhysAddr op pl r 0, srcPhysAddr op pl r 0 + srcWidth pl * srcBytes op)

/-- The byte ranges [lo, hi) of the destination footprint's rows (R68). -/
def dstSpans (op : ScaleOp) (pl : Planes) : List (Int × Int) :=
  (List.range (dstHeight pl)).map fun r =>
    (dstAddr op pl r 0, dstAddr op pl r 0 + dstWidth pl * dstBytes op)

/-- The address lies in one of the ranges. -/
def inSpans (spans : List (Int × Int)) (a : Int) : Bool :=
  spans.any fun sp => sp.1 ≤ a && a < sp.2

/-- MEM_VALID (R61) inside the 2^64-byte address space. -/
def memValid (cfg : Config) (a : Nat) : Bool :=
  a < 2 ^ 64 && !cfg.holes.any fun h => h.1 ≤ a && a < h.2

/-- The addresses of the ranges' bytes that exist. -/
def spanBytes (cfg : Config) (spans : List (Int × Int)) : List Nat :=
  spans.flatMap fun sp =>
    (List.range (sp.2 - sp.1).toNat).filterMap fun (k : Nat) =>
      let a : Int := sp.1 + (k : Int)
      if 0 ≤ a && memValid cfg a.toNat then some a.toNat else none

end Sys2Proof.Machine
end

