-- ==== Sys2Proof/Machine/Ops.lean ====
section
/-! DEFINITION. The named operations: host memory in its canonical form, sample access (20_memory.md), START, the report of
an error (R300, the exception of this machine) and the end of a command (R34). -/

namespace Sys2Proof.Machine

/-! ### Host memory -/

/-- What an address that is not listed reads as. DESIGN CHOICE (log 3): the spec gives host memory no contents. -/
def unlistedByte : Byte := 0#8

/-- Keys rise strictly from `lo` on, stay inside the 2^64-byte space, and no entry equals the unlisted byte. -/
def Memory.wfFrom : Nat → Memory → Bool
  | _, [] => true
  | lo, (k, b) :: rest => lo ≤ k && k < 2 ^ 64 && b ≠ unlistedByte && Memory.wfFrom (k + 1) rest

/-- The canonical form of memory. -/
def Memory.wf (m : Memory) : Bool := Memory.wfFrom 0 m

/-- MemByte(a) (R62). -/
def Memory.read : Memory → Nat → Byte
  | [], _ => unlistedByte
  | (k, b) :: rest, a => if k = a then b else Memory.read rest a

/-- The list with the entry of `a` removed. -/
def Memory.erase : Memory → Nat → Memory
  | [], _ => []
  | (k, b) :: rest, a => if k = a then rest else (k, b) :: Memory.erase rest a

/-- The list with the entry of `a` set to `v`, in its place by address. -/
def Memory.insert : Memory → Nat → Byte → Memory
  | [], a, v => [(a, v)]
  | (k, b) :: rest, a, v =>
    if a < k then (a, v) :: (k, b) :: rest
    else if a = k then (a, v) :: rest
    else (k, b) :: Memory.insert rest a v

/-- A byte write; no byte exists at 2^64 or above (R60). -/
def Memory.write (m : Memory) (a : Nat) (v : Byte) : Memory :=
  if a < 2 ^ 64 then
    if v = unlistedByte then Memory.erase m a else Memory.insert m a v
  else m

/-- MemRead(a, n) for a sample of n = 1 or 2 bytes, little-endian (R62), zero-extended (R63). -/
def loadSample (m : Memory) (a : Nat) : Nat → Nat
  | 1 => (Memory.read m a).toNat
  | _ => (Memory.read m a).toNat + 256 * (Memory.read m (a + 1)).toNat

/-- MemWrite(a, n, v) for a sample of n = 1 or 2 bytes, little-endian (R62): the low bits of v (R63). -/
def storeSample (m : Memory) (a : Nat) (n : Nat) (v : Nat) : Memory :=
  match n with
  | 1 => Memory.write m a (BitVec.ofNat 8 v)
  | _ => Memory.write (Memory.write m a (BitVec.ofNat 8 v)) (a + 1) (BitVec.ofNat 8 (v / 256))

/-! ### Rows and plane access -/

/-- The answer of a computation that may raise an error (R14, R300). -/
abbrev Res := Except Err

/-- A row as a kernel sees it: `s[i]`, which raises ERR_OOB outside the row (R15, R67). -/
abbrev Reader := Int → Res Nat

/-- A row given by value. -/
def listRow (l : Row) : Reader := fun i =>
  if 0 ≤ i then
    match l[i.toNat]? with
    | some v => .ok v
    | none => .error .oob
  else .error .oob

/-- `row r`: the logical source row r of the plane (R64), with the bounds of R67. -/
def srcRow (op : ScaleOp) (pl : Planes) (m : Memory) (r : Int) : Reader := fun c =>
  if 0 ≤ r ∧ r < srcHeight pl ∧ 0 ≤ c ∧ c < srcWidth pl then
    .ok (loadSample m (srcAddr op pl r.toNat c.toNat).toNat (srcBytes op))
  else .error .oob

/-- `d[i], …, d[i + n - 1]` from the formula of each index. -/
def rowFrom (f : Nat → Res Nat) : Nat → Nat → Res Row
  | _, 0 => .ok []
  | i, n + 1 => do
    let v ← f i
    let rest ← rowFrom f (i + 1) n
    .ok (v :: rest)

/-- A row of n outputs, "given per output index 0 ≤ i < n" (42_row_kernels.md, R161). -/
def rowOf (n : Nat) (f : Nat → Res Nat) : Res Row := rowFrom f 0 n

/-! ### Free values -/

/-- Every listed byte becomes an unspecified value (R267, R73, R330). -/
def scramble (addrs : List Nat) (s : State) : State :=
  { s with mem := addrs.foldl (fun m a => Memory.write m a (Config.freeByte s.free a)) s.mem,
           free := s.free + 1 }

/-- The destination footprint of a scaling command becomes unspecified (R267). -/
def scrambleDst (op : ScaleOp) (pl : Planes) (s : State) : State :=
  scramble (spanBytes s.cfg (dstSpans op pl)) s

/-- The destination footprint of a latched command becomes unspecified; a command that is no scaling command has none. -/
def scrambleLatched (c : Latched) (s : State) : State :=
  match latchedScaleOp c with
  | some op => scrambleDst op c.planes s
  | none => s

/-- Byte i of the scratch row store, none beyond SCRATCH_BYTES (R40): unspecified. -/
def scratchByte (s : State) (i : Nat) : Option Byte :=
  if i < s.cfg.scratchBytes then some (Config.scratchByte s.scratchGen i) else none

/-! ### START, errors, and the end of a command -/

/-- START (R32, R34, R38, R42, R43): latch the command, clear STATUS and STEP_*, enter Busy. -/
def startCommand (w : Word) (s : State) : State :=
  { clearStatus s with phase := .busy (latch w s) false }

/-- The end of a command (R34, R342): BUSY = 0, DONE = 1, ERR the result. A command whose footprints the host disturbed
leaves its destination unspecified (R73); the scratch contents are unspecified again (R40). -/
def endCommand (e : Option Err) (s : State) : State :=
  let t := match s.phase with
    | .busy c true => scrambleLatched c s
    | _ => s
  { t with phase := .idle, done := true, err := e, scratchGen := t.scratchGen + 1 }

/-- A whole command that a check before dispatch ends (R300, R311 steps 1 to 4): PATH, EFF_FILTER and STEP_* are 0. -/
def raiseBeforeDispatch (e : Err) (s : State) : State :=
  endCommand (some e) (clearStatus s)

/-- `raise` while an internal operation runs (R300): the running command, if there is one, ends, and its destination is
unspecified because its path was running (R267, R311 step 11). DESIGN CHOICE (log 5): with no command running, ERR and DONE
are set and PATH, EFF_FILTER and STEP_* stay those of the last command; R300 reports errors of a running command only. -/
def raiseWhileRunning (e : Err) (s : State) : State :=
  match s.phase with
  | .busy c _ => endCommand (some e) (scrambleLatched c s)
  | .idle => endCommand (some e) s

/-- The result port takes an internal operation's answer (log 5). -/
def setResult (r : OpResult) (s : State) : State :=
  { s with result := r }

/-- An internal operation that answers a value or raises. -/
def answer (r : Res OpResult) (s : State) : Result :=
  match r with
  | .ok v => .next (setResult v s)
  | .error e => .next (raiseWhileRunning e s)

/-- Register values after reset, of a running machine (R330): every register 0, Idle, scratch unspecified, host memory not
touched; a command that was running leaves its destination footprint unspecified. -/
def resetInput (s : State) : State :=
  let t := match s.phase with
    | .busy c _ => scrambleLatched c s
    | .idle => s
  { clearStatus t with
      srcBaseLo := 0#32, srcBaseHi := 0#32, srcStride := 0#32, srcW := 0#32, srcH := 0#32,
      dstBaseLo := 0#32, dstBaseHi := 0#32, dstStride := 0#32, dstW := 0#32, dstH := 0#32,
      scale := 0#16, phase := .idle, scratchGen := t.scratchGen + 1 }

end Sys2Proof.Machine
end

