-- ==== Sys2Proof/Machine/Selector.lean ====
section
/-! DEFINITION. fast_path_ratio_selector (41_filter_reduce_dispatch.md): FR.REDUCE, FR.SELECT, FR.SELECT12. -/

namespace Sys2Proof.Machine

/-- The Box step (R131). -/
def reduceBox (w h dstW dstH : Int) (m : FilterMode) : FilterMode :=
  if m = .box ∧ (w ≤ 2 * dstW ∨ h ≤ 2 * dstH) then .bilinear else m

/-- The Bilinear step (R132): to Linear for the height's reasons, then to None for a one-column source. -/
def reduceBilinear (w h dstH : Int) (m : FilterMode) : FilterMode :=
  if m = .bilinear then
    let m1 : FilterMode := if h = 1 ∨ dstH = h ∨ 3 * dstH = h then .linear else .bilinear
    if w = 1 then .none else m1
  else m

/-- The Linear step (R133). -/
def reduceLinear (w dstW : Int) (m : FilterMode) : FilterMode :=
  if m = .linear ∧ (w = 1 ∨ dstW = w ∨ 3 * dstW = w) then .none else m

/-- Reduce (R130): the three steps once, in order, on the absolute source sizes. -/
def reduce (srcW srcH dstW dstH : Int) (req : FilterMode) : FilterMode :=
  let w : Int := srcW.natAbs
  let h : Int := srcH.natAbs
  reduceLinear w dstW (reduceBilinear w h dstH (reduceBox w h dstW dstH req))

/-- 4·DST_W = 3·SRC_W and 4·DST_H = 3·H (R145). -/
def ratio34 (srcW h dstW dstH : Int) : Bool := 4 * dstW = 3 * srcW ∧ 4 * dstH = 3 * h

/-- 2·DST_W = SRC_W and 2·DST_H = H (R145). -/
def ratio2 (srcW h dstW dstH : Int) : Bool := 2 * dstW = srcW ∧ 2 * dstH = h

/-- 8·DST_W = 3·SRC_W and 8·DST_H = 3·H (R145). -/
def ratio38 (srcW h dstW dstH : Int) : Bool := 8 * dstW = 3 * srcW ∧ 8 * dstH = 3 * h

/-- 4·DST_W = SRC_W and 4·DST_H = H (R145). -/
def ratio4 (srcW h dstW dstH : Int) : Bool := 4 * dstW = srcW ∧ 4 * dstH = h

/-- The exact 2x test of one axis, (dst + 1) / 2 = src (R147). -/
def doubles (src dst : Int) : Bool := (dst + 1).tdiv 2 = src

/-- Steps 3 to 10 of the dispatch (R143 to R150), on the signed SRC_W and the positive height. -/
def selectPath (srcW h dstW dstH : Int) (m : FilterMode) : PathCode :=
  let down : Bool := dstW ≤ srcW.natAbs ∧ dstH ≤ h
  if dstW = srcW ∧ dstH = h then .copy
  else if dstW = srcW ∧ m ≠ .box then .vertical
  else if down ∧ ratio34 srcW h dstW dstH then .down34
  else if down ∧ ratio2 srcW h dstW dstH then .down2
  else if down ∧ ratio38 srcW h dstW dstH then .down38
  else if down ∧ ratio4 srcW h dstW dstH ∧ (m = .box ∨ m = .none) then .down4
  else if m = .box ∧ 2 * dstH < h then .box
  else if doubles srcW dstW ∧ m = .linear then .up2Linear
  else if doubles h dstH ∧ doubles srcW dstW ∧ (m = .bilinear ∨ m = .box) then .up2Bilinear
  else if m ≠ .none ∧ h < dstH then .bilinearUp
  else if m ≠ .none then .bilinearDown
  else .simple

/-- The dispatch of SCALE8, SCALE16 and SCALE16TO8 (R140 to R150). -/
def select (srcW srcH dstW dstH : Int) (f : FilterMode) : Selection :=
  let m := reduce srcW srcH dstW dstH f
  { path := selectPath srcW srcH.natAbs dstW dstH m, mode := m, flipped := srcH < 0, height := srcH.natAbs }

/-- The dispatch of SCALE12 (R155): the two 2x tests first, then the dispatch of SCALE16. -/
def select12 (srcW srcH dstW dstH : Int) (f : FilterMode) : Selection :=
  let m := reduce srcW srcH dstW dstH f
  let h : Int := srcH.natAbs
  let path : PathCode :=
    if doubles srcW dstW ∧ m = .linear then .up2Linear12
    else if doubles h dstH ∧ doubles srcW dstW ∧ (m = .bilinear ∨ m = .box) then .up2Bilinear12
    else selectPath srcW h dstW dstH m
  { path := path, mode := m, flipped := srcH < 0, height := srcH.natAbs }

/-- The dispatch of a scaling command (R265). -/
def dispatch (op : ScaleOp) (pl : Planes) (f : FilterMode) : Selection :=
  match op with
  | .scale12 => select12 pl.srcW.toInt pl.srcH.toInt pl.dstW.toInt pl.dstH.toInt f
  | .scale8 | .scale16 | .scale16to8 => select pl.srcW.toInt pl.srcH.toInt pl.dstW.toInt pl.dstH.toInt f

/-- FR.REDUCE (R130). DESIGN CHOICE (log 23): on operands outside the domain of R130 the steps are computed as written. -/
def execFrReduce (srcW srcH dstW dstH : Int) (m : FilterMode) (s : State) : Result :=
  .next (setResult (.mode (reduce srcW srcH dstW dstH m)) s)

/-- FR.SELECT (R140). DESIGN CHOICE (log 23): on operands outside the domain of R130 the steps are computed as written. -/
def execFrSelect (srcW srcH dstW dstH : Int) (f : FilterMode) (s : State) : Result :=
  .next (setResult (.selection (select srcW srcH dstW dstH f)) s)

/-- FR.SELECT12 (R155). DESIGN CHOICE (log 23): on operands outside the domain of R130 the steps are computed as written. -/
def execFrSelect12 (srcW srcH dstW dstH : Int) (f : FilterMode) (s : State) : Result :=
  .next (setResult (.selection (select12 srcW srcH dstW dstH f)) s)

end Sys2Proof.Machine
end

