-- ==== Sys2Proof/Machine/Checks.lean ====
section
/-! DEFINITION. The checks of a command in the order of R311: steps 2 to 4 before dispatch, steps 5 to 10 after it. -/

namespace Sys2Proof.Machine

/-! ### Before dispatch -/

/-- The dimensions are legal (R302). -/
def dimsLegal (cfg : Config) (pl : Planes) : Bool :=
  pl.srcW.toInt ≠ 0 && srcWidth pl ≤ cfg.maxDim.val &&
  pl.srcH.toInt ≠ 0 && srcHeight pl ≤ cfg.maxDim.val &&
  1 ≤ pl.dstW.toInt && pl.dstW.toInt ≤ cfg.maxDim.val &&
  1 ≤ pl.dstH.toInt && pl.dstH.toInt ≤ cfg.maxDim.val

/-- SCALE lies in [256, 32768], or the command ignores it (R303). -/
def scaleLegal (op : ScaleOp) (pl : Planes) : Bool :=
  op ≠ .scale16to8 || (256 ≤ pl.scale.toNat && pl.scale.toNat ≤ 32768)

/-- A base for samples of n bytes: even when n = 2 (R65). -/
def baseAligned (base : BitVec 64) (n : Nat) : Bool :=
  n ≠ 2 || base.toNat % 2 = 0

/-- The bases are aligned (R310). -/
def basesAligned (op : ScaleOp) (pl : Planes) : Bool :=
  baseAligned pl.srcBase (srcBytes op) && baseAligned pl.dstBase (dstBytes op)

/-- PreCheck (R266): steps 2 to 4 of R311, the first that fails. -/
def preCheck (cfg : Config) (op : ScaleOp) (pl : Planes) : Option Err :=
  if dimsLegal cfg pl = false then some .dim
  else if scaleLegal op pl = false then some .scale
  else if basesAligned op pl = false then some .align
  else none

/-! ### After dispatch -/

/-- The identical-plane COPY short-circuit (R69). -/
def copyShortCircuit (op : ScaleOp) (pl : Planes) (path : PathCode) : Bool :=
  path = .copy && op ≠ .scale16to8 && 0 < pl.srcH.toInt && pl.srcBase = pl.dstBase && pl.srcStride = pl.dstStride

/-- Every byte of the ranges lies in [0, 2^64) (R67). -/
def spansInSpace (spans : List (Int × Int)) : Bool :=
  spans.all fun sp => 0 ≤ sp.1 && sp.2 ≤ 2 ^ 64

/-- No byte of the ranges has MEM_VALID false: each range misses each hole (R309). -/
def spansValid (cfg : Config) (spans : List (Int × Int)) : Bool :=
  spans.all fun sp => cfg.holes.all fun h => h.2 ≤ h.1 || sp.2 ≤ h.1 || (h.2 : Int) ≤ sp.1

/-- Two lists of ranges share a byte (R69 a). -/
def spansMeet (xs ys : List (Int × Int)) : Bool :=
  xs.any fun x => ys.any fun y => max x.1 y.1 < min x.2 y.2

/-- Two distinct destination samples share a byte (R69 b): the rows' starts are closer than a row is wide. -/
def dstSelfOverlap (pl : Planes) : Bool :=
  1 < dstHeight pl && pl.dstStride.toInt.natAbs < dstWidth pl

/-- The scratch demand of a path in bytes (R255). -/
def scratchDemand (op : ScaleOp) (pl : Planes) : PathCode → Nat
  | .box => match sampleWidth op with
    | .w8 => 2 * srcWidth pl
    | .w16 => 4 * srcWidth pl
  | .bilinearUp => 2 * ((dstWidth pl + 31) / 32 * 32) * srcBytes op
  | .bilinearDown => srcWidth pl * srcBytes op
  | .copy | .vertical | .down34 | .down2 | .down38 | .down4 => 0
  | .up2Linear | .up2Bilinear | .simple | .up2Linear12 | .up2Bilinear12 => 0

/-- What the checks after dispatch say. -/
inductive PostCheck where
  | fails (e : Err)
  | shortCircuit
  | runs
  deriving DecidableEq, Repr

/-- PostCheck (R266): steps 5 to 10 of R311, in order. -/
def postCheck (cfg : Config) (op : ScaleOp) (pl : Planes) (path : PathCode) : PostCheck :=
  if path = .box ∧ pl.srcW.toInt < 0 then .fails .mirrorBox
  else if copyShortCircuit op pl path then .shortCircuit
  else if spansInSpace (srcSpans op pl) = false ∨ spansInSpace (dstSpans op pl) = false then .fails .oob
  else if spansValid cfg (srcSpans op pl) = false ∨ spansValid cfg (dstSpans op pl) = false then .fails .bus
  else if spansMeet (srcSpans op pl) (dstSpans op pl) ∨ dstSelfOverlap pl then .fails .overlap
  else if cfg.scratchBytes < scratchDemand op pl path then .fails .alloc
  else .runs

end Sys2Proof.Machine
end

