-- ==== Sys2Proof/Machine/FixedPoint.lean ====
section
/-! DEFINITION. fixed_point_coordinate_stepper (40_fixed_point.md): FX.DIV, FX.DIV1, FX.CENTER, FX.SLOPE. -/

namespace Sys2Proof.Machine

/-- int32(v): two's-complement truncation to 32 bits (R12). -/
def int32 (v : Int) : Int := (v + 2 ^ 31) % 2 ^ 32 - 2 ^ 31

/-- The integer part c >> 16 of a 16.16 coordinate (R13). -/
def wholePart (c : Int) : Int := c >>> (16 : Nat)

/-- The fraction c & 0xFFFF of a 16.16 coordinate (R13). -/
def fracPart (c : Int) : Int := c % 65536

/-- FixedDiv (R100): division truncates toward zero (R12). DESIGN CHOICE (log 21): outside the operand domain num ≥ 0,
den ≥ 1 of R100 the quotient is a free value; and where num << 16 does not fit the 64-bit intermediate that R100 names
(num at least 2^47), it is computed on unbounded integers, as R100 gives no wrap there. -/
def fixedDiv (num den : Int) : Int :=
  if 0 ≤ num ∧ 1 ≤ den then int32 ((num * 2 ^ 16).tdiv den) else (Config.freeQuotient num den).toInt

/-- FixedDiv1 (R102), the subtrahend that 90_conflicts.md C2 settles. DESIGN CHOICE (log 21): outside the operand domain
num ≥ 1, den ≥ 2 of R102 the quotient is a free value. -/
def fixedDiv1 (num den : Int) : Int :=
  if 1 ≤ num ∧ 2 ≤ den then int32 ((num * 2 ^ 16 - 0x00010001).tdiv (den - 1))
  else (Config.freeEndQuotient num den).toInt

/-- CENTERSTART (R105). -/
def centerStart (d s : Int) : Int :=
  if 0 ≤ d then (d >>> (1 : Nat)) + s else -(((-d) >>> (1 : Nat)) + s)

/-- The overflow edge case for one axis (R107). -/
def edgeCase (size dst : Int) : Int :=
  if dst = 1 ∧ 32768 ≤ size then size else dst

/-- The start and step of a filtered axis, the Bilinear form of R109; an upscale of or to one sample leaves (0, 0)
(R108, R111). -/
def filteredAxis (size dst : Int) : Int × Int :=
  if dst ≤ size then
    let d := fixedDiv size dst
    (centerStart d (-32768), d)
  else if 1 < size ∧ 1 < dst then (0, fixedDiv1 size dst)
  else (0, 0)

/-- The per-mode slope of R109, before mirroring; `w`, `h`, `dstW`, `dstH` are those after R107. -/
def modeSlope (w h dstW dstH : Int) : FilterMode → ScaleStep
  | .box => { x := 0, y := 0, dx := fixedDiv w dstW, dy := fixedDiv h dstH }
  | .bilinear =>
    let (x, dx) := filteredAxis w dstW
    let (y, dy) := filteredAxis h dstH
    { x := x, y := y, dx := dx, dy := dy }
  | .linear =>
    let (x, dx) := filteredAxis w dstW
    let dy := fixedDiv h dstH
    { x := x, y := dy >>> (1 : Nat), dx := dx, dy := dy }
  | .none =>
    let dx := fixedDiv w dstW
    let dy := fixedDiv h dstH
    { x := centerStart dx 0, y := centerStart dy 0, dx := dx, dy := dy }

/-- Horizontal mirror (R113). -/
def mirrorStep (dstW : Int) (st : ScaleStep) : ScaleStep :=
  { st with x := st.x + (dstW - 1) * st.dx, dx := -st.dx }

/-- Slope (R106 to R113): a negative `srcW` asks for the horizontal mirror. -/
def scaleSlope (srcW srcH dstW dstH : Int) (m : FilterMode) : ScaleStep :=
  let w : Int := srcW.natAbs
  let dw := edgeCase w dstW
  let dh := edgeCase srcH dstH
  let st := modeSlope w srcH dw dh m
  if srcW < 0 then mirrorStep dw st else st

/-- FX.DIV (R100); den = 0 is refused (R101). -/
def execFxDiv (num den : Nat) (s : State) : Result :=
  if den = 0 then .refused .fixedDivByZero
  else .next (setResult (.number (fixedDiv num den)) s)

/-- FX.DIV1 (R102); den ≤ 1 is refused (R102, R349). -/
def execFxDiv1 (num den : Nat) (s : State) : Result :=
  if den ≤ 1 then .refused .fixedDiv1Guard
  else .next (setResult (.number (fixedDiv1 num den)) s)

/-- FX.CENTER (R105). -/
def execFxCenter (d off : Int) (s : State) : Result :=
  .next (setResult (.number (centerStart d off)) s)

/-- R109 calls FixedDiv with den = 0: every mode divides W by a dst_w of 0, and H by a dst_h of 0, but for Bilinear on a
negative H, whose vertical axis is then an upscale. -/
def slopeDividesByZero (srcH dstW dstH : Int) (m : FilterMode) : Bool :=
  dstW = 0 || (dstH = 0 && (m ≠ .bilinear || 0 ≤ srcH))

/-- FX.SLOPE (R106); a FixedDiv call with den = 0 is refused (R101). DESIGN CHOICE (log 21): on every other operand
outside the domain of R106 the pseudocode runs, with the free quotients of `fixedDiv`. -/
def execFxSlope (srcW srcH dstW dstH : Int) (m : FilterMode) (s : State) : Result :=
  if slopeDividesByZero srcH dstW dstH m then .refused .fixedDivByZero
  else .next (setResult (.step (scaleSlope srcW srcH dstW dstH m)) s)

end Sys2Proof.Machine
end

