-- ==== Sys2Proof/Machine/Kernels.lean ====
section
/-! DEFINITION. row_sampler_bank (42_row_kernels.md): every row kernel over `Reader` rows, exact integers, and its meaning as
an internal operation on rows given by value. -/

namespace Sys2Proof.Machine

/-! ### Common -/

/-- N(v) = clamp255((v * SCALE) >> 16) (R160). -/
def narrow (v scale : Nat) : Nat := min 255 ((v * scale) >>> 16)

/-- d[i] <- v on a row of fixed width; outside it ERR_OOB (R67; for a given output row DEDUCED, log 12). -/
def setAt (d : Row) (i v : Nat) : Res Row :=
  if i < d.length then .ok (d.set i v) else .error .oob

/-! ### Exact-ratio downscale kernels -/

/-- K.DOWN2_POINT (R162). -/
def down2Point (s : Reader) (n : Nat) : Res Row :=
  rowOf n fun i => s (2 * i + 1)

/-- K.DOWN2_LINEAR (R163). -/
def down2Linear (s : Reader) (n : Nat) : Res Row :=
  rowOf n fun i => do
    let a ← s (2 * i)
    let b ← s (2 * i + 1)
    .ok ((a + b + 1) >>> 1)

/-- K.DOWN2_BOX (R164). -/
def down2Box (s t : Reader) (n : Nat) : Res Row :=
  rowOf n fun i => do
    let a ← s (2 * i)
    let b ← s (2 * i + 1)
    let c ← t (2 * i)
    let d ← t (2 * i + 1)
    .ok ((a + b + c + d + 2) >>> 2)

/-- K.DOWN4_POINT (R165). -/
def down4Point (s : Reader) (n : Nat) : Res Row :=
  rowOf n fun i => s (4 * i + 2)

/-- s[c] + … + s[c + k - 1]. -/
def sumRun (s : Reader) (c : Int) : Nat → Res Nat
  | 0 => .ok 0
  | k + 1 => do
    let a ← sumRun s c k
    let b ← s (c + k)
    .ok (a + b)

/-- K.DOWN4_BOX (R166). -/
def down4Box (s0 s1 s2 s3 : Reader) (n : Nat) : Res Row :=
  rowOf n fun i => do
    let a ← sumRun s0 (4 * i) 4
    let b ← sumRun s1 (4 * i) 4
    let c ← sumRun s2 (4 * i) 4
    let d ← sumRun s3 (4 * i) 4
    .ok ((a + b + c + d + 8) >>> 4)

/-- K.DOWN34_POINT (R167): offsets 0, 1, 3 of each group of four. -/
def down34Point (s : Reader) (n : Nat) : Res Row :=
  rowOf n fun i =>
    let g : Int := (i / 3 : Nat)
    match i % 3 with
    | 0 => s (4 * g)
    | 1 => s (4 * g + 1)
    | _ => s (4 * g + 3)

/-- Component k of H(s, g) (R168). -/
def down34H (s : Reader) (g k : Nat) : Res Nat :=
  match k with
  | 0 => do
    let a ← s (4 * g)
    let b ← s (4 * g + 1)
    .ok ((3 * a + b + 2) >>> 2)
  | 1 => do
    let b ← s (4 * g + 1)
    let c ← s (4 * g + 2)
    .ok ((b + c + 1) >>> 1)
  | _ => do
    let c ← s (4 * g + 2)
    let d ← s (4 * g + 3)
    .ok ((c + 3 * d + 2) >>> 2)

/-- K.DOWN34_0_BOX (R169): weights 3:1 toward s. -/
def down34Box0 (s t : Reader) (n : Nat) : Res Row :=
  rowOf n fun i => do
    let a ← down34H s (i / 3) (i % 3)
    let b ← down34H t (i / 3) (i % 3)
    .ok ((3 * a + b + 2) >>> 2)

/-- K.DOWN34_1_BOX (R170). -/
def down34Box1 (s t : Reader) (n : Nat) : Res Row :=
  rowOf n fun i => do
    let a ← down34H s (i / 3) (i % 3)
    let b ← down34H t (i / 3) (i % 3)
    .ok ((a + b + 1) >>> 1)

/-- K.DOWN38_POINT (R171): offsets 0, 3, 6 of each group of eight. -/
def down38Point (s : Reader) (n : Nat) : Res Row :=
  rowOf n fun i =>
    let g : Int := (i / 3 : Nat)
    match i % 3 with
    | 0 => s (8 * g)
    | 1 => s (8 * g + 3)
    | _ => s (8 * g + 6)

/-- First column and width of the box of output k in a group of eight columns (R172, R173): 0..2, 3..5, 6..7. -/
def down38Cols (k : Nat) : Nat × Nat :=
  match k with
  | 0 => (0, 3)
  | 1 => (3, 3)
  | _ => (6, 2)

/-- K.DOWN38_3_BOX (R172). -/
def down38Box3 (s t u : Reader) (n : Nat) : Res Row :=
  rowOf n fun i => do
    let (c, w) := down38Cols (i % 3)
    let at0 : Int := 8 * (i / 3 : Nat) + c
    let a ← sumRun s at0 w
    let b ← sumRun t at0 w
    let d ← sumRun u at0 w
    .ok (((a + b + d) * (if i % 3 = 2 then 10922 else 7281)) >>> 16)

/-- K.DOWN38_2_BOX (R173). -/
def down38Box2 (s t : Reader) (n : Nat) : Res Row :=
  rowOf n fun i => do
    let (c, w) := down38Cols (i % 3)
    let at0 : Int := 8 * (i / 3 : Nat) + c
    let a ← sumRun s at0 w
    let b ← sumRun t at0 w
    .ok (((a + b) * (if i % 3 = 2 then 16384 else 10922)) >>> 16)

/-! ### Exact 2x upscale kernels -/

/-- K.UP2_LINEAR_CORE (R174): the pairs k < p, written into d from offset o. -/
def up2LinearCore (s : Reader) : Nat → Row → Nat → Res Row
  | 0, d, _ => .ok d
  | k + 1, d, o => do
    let d ← up2LinearCore s k d o
    let a ← s k
    let b ← s (k + 1)
    let d ← setAt d (o + 2 * k) ((3 * a + b + 2) >>> 2)
    setAt d (o + 2 * k + 1) ((a + 3 * b + 2) >>> 2)

/-- K.UP2_LINEAR (R175): the first output, the core, then the last output, "written last". -/
def up2Linear (s : Reader) (n : Nat) : Res Row := do
  let a ← s 0
  let d ← setAt (List.replicate n 0) 0 a
  let d ← up2LinearCore s ((n - 1) / 2) d 1
  let b ← s ((n - 1) / 2 : Nat)
  setAt d (n - 1) b

/-- K.UP2_BILINEAR_CORE (R177), on the pair of output rows (d, e). -/
def up2BilinearCore (s t : Reader) : Nat → Row × Row → Nat → Res (Row × Row)
  | 0, de, _ => .ok de
  | k + 1, de, o => do
    let (d, e) ← up2BilinearCore s t k de o
    let a ← s k
    let b ← s (k + 1)
    let c ← t k
    let f ← t (k + 1)
    let d ← setAt d (o + 2 * k) ((9 * a + 3 * b + 3 * c + f + 8) >>> 4)
    let d ← setAt d (o + 2 * k + 1) ((3 * a + 9 * b + c + 3 * f + 8) >>> 4)
    let e ← setAt e (o + 2 * k) ((3 * a + b + 9 * c + 3 * f + 8) >>> 4)
    let e ← setAt e (o + 2 * k + 1) ((a + 3 * b + 3 * c + 9 * f + 8) >>> 4)
    .ok (d, e)

/-- K.UP2_BILINEAR (R178): the row pair with its edges; the last outputs are written last. -/
def up2Bilinear (s t : Reader) (n : Nat) : Res (Row × Row) := do
  let a ← s 0
  let c ← t 0
  let d ← setAt (List.replicate n 0) 0 ((3 * a + c + 2) >>> 2)
  let e ← setAt (List.replicate n 0) 0 ((a + 3 * c + 2) >>> 2)
  let (d, e) ← up2BilinearCore s t ((n - 1) / 2) (d, e) 1
  let b ← s ((n - 1) / 2 : Nat)
  let f ← t ((n - 1) / 2 : Nat)
  let d ← setAt d (n - 1) ((3 * b + f + 2) >>> 2)
  let e ← setAt e (n - 1) ((b + 3 * f + 2) >>> 2)
  .ok (d, e)

/-! ### Column kernels -/

/-- K.COLS_POINT (R180). -/
def colsPoint (s : Reader) (n : Nat) (x dx : Int) : Res Row :=
  rowOf n fun j => s (wholePart (x + j * dx))

/-- One column of the two-tap blend with weight `w` of `2^sh` (R182, R183): a zero weight does not read the right
neighbour (D12). -/
def blendAt (s : Reader) (xi w : Int) (sh : Nat) : Res Nat := do
  let a ← s xi
  if w = 0 then .ok a
  else do
    let b ← s (xi + 1)
    .ok ((a : Int) + ((w * ((b : Int) - a) + 2 ^ (sh - 1)) >>> sh)).toNat

/-- K.COLS_BLEND8 (R182): 7-bit or 16-bit weights, as BLEND8 says (R11). -/
def colsBlend8 (bl : Blend8) (s : Reader) (n : Nat) (x dx : Int) : Res Row :=
  rowOf n fun j =>
    let xj := x + j * dx
    match bl with
    | .bits7 => blendAt s (wholePart xj) (fracPart xj >>> (9 : Nat)) 7
    | .bits16 => blendAt s (wholePart xj) (fracPart xj) 16

/-- K.COLS_BLEND16 (R183). -/
def colsBlend16 (s : Reader) (n : Nat) (x dx : Int) : Res Row :=
  rowOf n fun j =>
    let xj := x + j * dx
    blendAt s (wholePart xj) (fracPart xj) 16

/-! ### Vertical interpolator -/

/-- K.INTERP (R184): t is not read when f8 = 0. -/
def interp (s t : Reader) (n f8 : Nat) : Res Row :=
  rowOf n fun i => do
    let a ← s i
    if f8 = 0 then .ok a
    else do
      let b ← t i
      .ok ((a * (256 - f8) + b * f8 + 128) >>> 8)

/-! ### Box accumulate and divide -/

/-- uA(v), the accumulator wrap (R185). -/
def wrapAcc : SampleWidth → Nat → Nat
  | .w8, v => v % 2 ^ 16
  | .w16, v => v % 2 ^ 32

/-- K.ADDROW (R185): entries 0 .. w-1 take the sum; an index outside either row raises ERR_OOB (for acc: log 12). -/
def addRow (sw : SampleWidth) (s : Reader) (acc : Row) (w : Nat) : Res Row := do
  let head ← rowOf w fun i => do
    let a ← listRow acc i
    let v ← s i
    .ok (wrapAcc sw (a + v))
  .ok (head ++ acc.drop w)

/-- K.BOXDIV (R187). -/
def boxDiv (br : BoxRound) (sw : SampleWidth) (sum sc : Nat) : Nat :=
  let r := match br with
    | .nearest => 0x8000
    | .truncate => 0
  match sw with
  | .w8 => ((sum * sc + r) >>> 16) % 2 ^ 8
  | .w16 => (((sum % 2 ^ 32 * sc + r) % 2 ^ 32) >>> 16) % 2 ^ 16

/-- MIN1(v) of an integer box width, as a count (R12). -/
def min1 (v : Int) : Nat := (max v 1).toNat

/-- 65536 / (bw * bh), truncating (R186); none for an empty box, which the rule divides by nothing. -/
def reciprocal (bw bh : Nat) : Option Nat :=
  if bw * bh = 0 then none else some (65536 / (bw * bh))

/-- tbl[k] of the fractional branch (R186); the table has the entries 0 and 1 only. -/
def tableEntry (minbw k : Int) (bh : Nat) : Option Nat :=
  if k = 0 then reciprocal (min1 minbw) bh
  else if k = 1 then reciprocal (min1 (minbw + 1)) bh
  else none

/-- A free sample of the width (log 22). -/
def freeSample (sw : SampleWidth) (v : BitVec 16) : Nat :=
  match sw with
  | .w8 => v.toNat % 2 ^ 8
  | .w16 => v.toNat

/-- d[j] of K.ADDCOLS (R186) from the column sum. DESIGN CHOICE (log 22): a free value where the rule gives the sum no
reciprocal. -/
def boxSample (br : BoxRound) (sw : SampleWidth) (sum : Nat) (sc : Option Nat) (bh : Nat) (dx : Int) (j : Nat) : Nat :=
  match sc with
  | some sc => boxDiv br sw sum sc
  | none => freeSample sw (Config.freeBoxSample sum bh dx j)

/-- K.ADDCOLS (R186): at most two box widths for a fractional step, one for an integer step. -/
def addCols (br : BoxRound) (sw : SampleWidth) (acc : Row) (bh n : Nat) (x dx : Int) : Res Row :=
  if fracPart dx ≠ 0 then
    let minbw := wholePart dx
    rowOf n fun j => do
      let ix := wholePart (x + j * dx)
      let bw := min1 (wholePart (x + (j + 1) * dx) - ix)
      let sum ← sumRun (listRow acc) ix bw
      .ok (boxSample br sw sum (tableEntry minbw (bw - minbw) bh) bh dx j)
  else
    let bw := min1 (wholePart dx)
    rowOf n fun j => do
      let sum ← sumRun (listRow acc) (wholePart x + j * bw) bw
      .ok (boxSample br sw sum (reciprocal bw bh) bh dx j)

/-! ### The kernels as internal operations -/

/-- A kernel that answers one row. -/
def answerRow (r : Res Row) (s : State) : Result :=
  answer (r.map OpResult.row) s

/-- K.NARROW (R160). -/
def execKNarrow (v scale : Nat) (st : State) : Result :=
  .next (setResult (.number (narrow v scale)) st)

/-- K.DOWN2_POINT (R162). -/
def execKDown2Point (_ : SampleWidth) (s : Row) (n : Nat) (st : State) : Result :=
  answerRow (down2Point (listRow s) n) st

/-- K.DOWN2_LINEAR (R163). -/
def execKDown2Linear (_ : SampleWidth) (s : Row) (n : Nat) (st : State) : Result :=
  answerRow (down2Linear (listRow s) n) st

/-- K.DOWN2_BOX (R164). -/
def execKDown2Box (_ : SampleWidth) (s t : Row) (n : Nat) (st : State) : Result :=
  answerRow (down2Box (listRow s) (listRow t) n) st

/-- K.DOWN4_POINT (R165). -/
def execKDown4Point (_ : SampleWidth) (s : Row) (n : Nat) (st : State) : Result :=
  answerRow (down4Point (listRow s) n) st

/-- K.DOWN4_BOX (R166). -/
def execKDown4Box (_ : SampleWidth) (s0 s1 s2 s3 : Row) (n : Nat) (st : State) : Result :=
  answerRow (down4Box (listRow s0) (listRow s1) (listRow s2) (listRow s3) n) st

/-- K.DOWN34_POINT (R167). -/
def execKDown34Point (_ : SampleWidth) (s : Row) (n : Nat) (st : State) : Result :=
  answerRow (down34Point (listRow s) n) st

/-- K.DOWN34_H (R168): the three components. -/
def execKDown34H (_ : SampleWidth) (s : Row) (g : Nat) (st : State) : Result :=
  answerRow (rowOf 3 (down34H (listRow s) g)) st

/-- K.DOWN34_0_BOX (R169). -/
def execKDown34Box0 (_ : SampleWidth) (s t : Row) (n : Nat) (st : State) : Result :=
  answerRow (down34Box0 (listRow s) (listRow t) n) st

/-- K.DOWN34_1_BOX (R170). -/
def execKDown34Box1 (_ : SampleWidth) (s t : Row) (n : Nat) (st : State) : Result :=
  answerRow (down34Box1 (listRow s) (listRow t) n) st

/-- K.DOWN38_POINT (R171). -/
def execKDown38Point (_ : SampleWidth) (s : Row) (n : Nat) (st : State) : Result :=
  answerRow (down38Point (listRow s) n) st

/-- K.DOWN38_3_BOX (R172). -/
def execKDown38Box3 (_ : SampleWidth) (s t u : Row) (n : Nat) (st : State) : Result :=
  answerRow (down38Box3 (listRow s) (listRow t) (listRow u) n) st

/-- K.DOWN38_2_BOX (R173). -/
def execKDown38Box2 (_ : SampleWidth) (s t : Row) (n : Nat) (st : State) : Result :=
  answerRow (down38Box2 (listRow s) (listRow t) n) st

/-- K.UP2_LINEAR_CORE (R174). -/
def execKUp2LinearCore (_ : SampleWidth) (s : Row) (p : Nat) (d : Row) (o : Nat) (st : State) : Result :=
  answerRow (up2LinearCore (listRow s) p d o) st

/-- K.UP2_LINEAR (R175). -/
def execKUp2Linear (_ : SampleWidth) (s : Row) (n : Nat) (st : State) : Result :=
  answerRow (up2Linear (listRow s) n) st

/-- K.UP2_BILINEAR_CORE (R177). -/
def execKUp2BilinearCore (_ : SampleWidth) (s t : Row) (p : Nat) (d e : Row) (o : Nat) (st : State) : Result :=
  answer ((up2BilinearCore (listRow s) (listRow t) p (d, e) o).map fun de => .rowPair de.1 de.2) st

/-- K.UP2_BILINEAR (R178). -/
def execKUp2Bilinear (_ : SampleWidth) (s t : Row) (n : Nat) (st : State) : Result :=
  answer ((up2Bilinear (listRow s) (listRow t) n).map fun de => .rowPair de.1 de.2) st

/-- K.COLS_POINT (R180). -/
def execKColsPoint (_ : SampleWidth) (s : Row) (n : Nat) (x dx : Int) (st : State) : Result :=
  answerRow (colsPoint (listRow s) n x dx) st

/-- K.COLS_BLEND8 (R182). -/
def execKColsBlend8 (s : Row) (n : Nat) (x dx : Int) (st : State) : Result :=
  answerRow (colsBlend8 st.cfg.blend8 (listRow s) n x dx) st

/-- K.COLS_BLEND16 (R183). -/
def execKColsBlend16 (s : Row) (n : Nat) (x dx : Int) (st : State) : Result :=
  answerRow (colsBlend16 (listRow s) n x dx) st

/-- K.INTERP (R184). -/
def execKInterp (_ : SampleWidth) (s t : Row) (n : Nat) (f8 : BitVec 8) (st : State) : Result :=
  answerRow (interp (listRow s) (listRow t) n f8.toNat) st

/-- K.ADDROW (R185). -/
def execKAddrow (sw : SampleWidth) (s acc : Row) (w : Nat) (st : State) : Result :=
  answerRow (addRow sw (listRow s) acc w) st

/-- K.ADDCOLS (R186). DESIGN CHOICE (log 22): outside its operand domain bh ≥ 1, dx > 0 the pseudocode runs too, with a
free value for every sample that it gives no reciprocal. -/
def execKAddcols (sw : SampleWidth) (acc : Row) (bh n : Nat) (x dx : Int) (st : State) : Result :=
  answerRow (addCols st.cfg.boxRound sw acc bh n x dx) st

/-- K.BOXDIV (R187). -/
def execKBoxdiv (sw : SampleWidth) (sum sc : Nat) (st : State) : Result :=
  .next (setResult (.number (boxDiv st.cfg.boxRound sw sum sc)) st)

end Sys2Proof.Machine
end

