-- ==== Sys2Proof/Machine/Paths.lean ====
section
/-! DEFINITION. The plane paths (43_plane_paths.md): the ScaleStep and the output rows of each path, as a function of the
source bytes (R75), the output primitive (R212), and the P operations. -/

namespace Sys2Proof.Machine

/-! ### What a path is given -/

/-- The parameters of a running path: the command's widths, its planes, the effective mode, and host memory as it stood at
START (R75). -/
structure PathJob where
  cfg : Config
  op : ScaleOp
  planes : Planes
  mode : FilterMode
  mem : Memory

/-- `row r` of the path's source (R64). -/
def jobRow (jb : PathJob) (r : Int) : Reader := srcRow jb.op jb.planes jb.mem r

/-- W of the path. -/
def jobW (jb : PathJob) : Nat := srcWidth jb.planes

/-- H of the path. -/
def jobH (jb : PathJob) : Nat := srcHeight jb.planes

/-- Wd of the path. -/
def jobWd (jb : PathJob) : Nat := dstWidth jb.planes

/-- Hd of the path. -/
def jobHd (jb : PathJob) : Nat := dstHeight jb.planes

/-- The output rows of a path, as row writes in the order they are made; the last write of a row counts (R70). -/
abbrev RowWrites := List (Nat × Row)

/-- Output rows j, …, j + n - 1, each from its own formula. -/
def planeFrom (f : Nat → Res Row) : Nat → Nat → Res RowWrites
  | _, 0 => .ok []
  | j, n + 1 => do
    let d ← f j
    let rest ← planeFrom f (j + 1) n
    .ok ((j, d) :: rest)

/-- A path that gives each output row by a formula. -/
def planeOf (jb : PathJob) (f : Nat → Res Row) : Res RowWrites := planeFrom f 0 (jobHd jb)

/-- HF, the horizontal filter of a path (43_plane_paths.md, common notation). -/
def horizontalFilter (jb : PathJob) (st : ScaleStep) (s : Reader) : Res Row :=
  if jb.mode = .none then colsPoint s (jobWd jb) st.x st.dx
  else match sampleWidth jb.op with
    | .w8 => colsBlend8 jb.cfg.blend8 s (jobWd jb) st.x st.dx
    | .w16 => colsBlend16 s (jobWd jb) st.x st.dx

/-! ### The ScaleStep of a path -/

/-- The vertical step of VERTICAL (R213), without the overflow edge case of R107. -/
def verticalStep (h hd : Int) : ScaleStep :=
  if hd ≤ h then
    let dy := fixedDiv h hd
    { x := 0, y := centerStart dy (-32768), dx := 0, dy := dy }
  else if 1 < h ∧ 1 < hd then { x := 0, y := 0, dx := 0, dy := fixedDiv1 h hd }
  else { x := 0, y := 0, dx := 0, dy := 0 }

/-- The ScaleStep a path computes; 0 for the paths that compute none (R38). -/
def pathStep (pl : Planes) (path : PathCode) (m : FilterMode) : ScaleStep :=
  let w := pl.srcW.toInt
  let h : Int := srcHeight pl
  let wd := pl.dstW.toInt
  let hd := pl.dstH.toInt
  match path with
  | .vertical => verticalStep h hd
  | .box => scaleSlope w h wd hd .box
  | .bilinearUp => scaleSlope w h wd hd m
  | .bilinearDown => scaleSlope w h wd hd m
  | .simple => scaleSlope w h wd hd .none
  | .copy | .down34 | .down2 | .down38 | .down4 => { x := 0, y := 0, dx := 0, dy := 0 }
  | .up2Linear | .up2Bilinear | .up2Linear12 | .up2Bilinear12 => { x := 0, y := 0, dx := 0, dy := 0 }

/-! ### The rows of a path -/

/-- P.COPY (R210). -/
def copyRows (jb : PathJob) : Res RowWrites :=
  planeOf jb fun j => rowOf (jobWd jb) fun c => jobRow jb j c

/-- Ratio 1: the planes that step 3 of dispatch gives to COPY (R143). -/
def ratioOne (pl : Planes) : Bool :=
  pl.dstW = pl.srcW && dstHeight pl = srcHeight pl

/-- max_y of R214, for every call that dispatch can make. DEDUCED (log 20): at ratio 1, where R143 selects COPY before R144
is asked, the last row's coordinate is not cut, because R153 says that VERTICAL equals COPY there. -/
def verticalMaxY (pl : Planes) : Int :=
  if srcHeight pl ≤ 1 then 0
  else if ratioOne pl then ((srcHeight pl : Int) - 1) * 2 ^ 16
  else ((srcHeight pl : Int) - 1) * 2 ^ 16 - 1

/-- P.VERTICAL (R214; at ratio 1 R153). -/
def verticalRows (jb : PathJob) (st : ScaleStep) : Res RowWrites :=
  planeOf jb fun j =>
    let yj := min (st.y + j * st.dy) (verticalMaxY jb.planes)
    let yi := wholePart yj
    let f8 : Nat := if jb.mode = .bilinear then ((yj >>> (8 : Nat)) % 256).toNat else 0
    interp (jobRow jb yi) (jobRow jb (yi + 1)) (jobWd jb) f8

/-- P.DOWN2 (R216). -/
def down2Rows (jb : PathJob) : Res RowWrites :=
  planeOf jb fun j =>
    match jb.mode with
    | .none => down2Point (jobRow jb (2 * j + 1)) (jobWd jb)
    | .linear => down2Linear (jobRow jb (2 * j)) (jobWd jb)
    | .bilinear | .box => down2Box (jobRow jb (2 * j)) (jobRow jb (2 * j + 1)) (jobWd jb)

/-- P.DOWN4 (R218). -/
def down4Rows (jb : PathJob) : Res RowWrites :=
  planeOf jb fun j =>
    if jb.mode = .none then down4Point (jobRow jb (4 * j + 2)) (jobWd jb)
    else down4Box (jobRow jb (4 * j)) (jobRow jb (4 * j + 1)) (jobRow jb (4 * j + 2)) (jobRow jb (4 * j + 3)) (jobWd jb)

/-- K0 of DOWN34 on `pair(a, b)` (R220): under Linear the second row is the first. -/
def down34K0 (jb : PathJob) (a b : Int) : Res Row :=
  match jb.mode with
  | .none => down34Point (jobRow jb a) (jobWd jb)
  | .linear => down34Box0 (jobRow jb a) (jobRow jb a) (jobWd jb)
  | .bilinear | .box => down34Box0 (jobRow jb a) (jobRow jb b) (jobWd jb)

/-- K1 of DOWN34 on `pair(a, b)` (R220). -/
def down34K1 (jb : PathJob) (a b : Int) : Res Row :=
  match jb.mode with
  | .none => down34Point (jobRow jb a) (jobWd jb)
  | .linear => down34Box1 (jobRow jb a) (jobRow jb a) (jobWd jb)
  | .bilinear | .box => down34Box1 (jobRow jb a) (jobRow jb b) (jobWd jb)

/-- P.DOWN34 (R220), with the remainder rows of R221. -/
def down34Rows (jb : PathJob) : Res RowWrites :=
  planeOf jb fun j =>
    let b : Int := 4 * (j / 3 : Nat)
    if j / 3 < jobHd jb / 3 then
      match j % 3 with
      | 0 => down34K0 jb b (b + 1)
      | 1 => down34K1 jb (b + 1) (b + 2)
      | _ => down34K0 jb (b + 3) (b + 2)
    else if jobHd jb % 3 = 2 then
      match j % 3 with
      | 0 => down34K0 jb b (b + 1)
      | _ => down34K1 jb (b + 1) (b + 1)
    else down34K0 jb b b

/-- K3 of DOWN38 on `rows3(a)` (R223). -/
def down38K3 (jb : PathJob) (a b c : Int) : Res Row :=
  match jb.mode with
  | .none => down38Point (jobRow jb a) (jobWd jb)
  | .linear => down38Box3 (jobRow jb a) (jobRow jb a) (jobRow jb a) (jobWd jb)
  | .bilinear | .box => down38Box3 (jobRow jb a) (jobRow jb b) (jobRow jb c) (jobWd jb)

/-- K2 of DOWN38 on `rows2(a)` (R223). -/
def down38K2 (jb : PathJob) (a b : Int) : Res Row :=
  match jb.mode with
  | .none => down38Point (jobRow jb a) (jobWd jb)
  | .linear => down38Box2 (jobRow jb a) (jobRow jb a) (jobWd jb)
  | .bilinear | .box => down38Box2 (jobRow jb a) (jobRow jb b) (jobWd jb)

/-- P.DOWN38 (R223), with the remainder rows of R224. -/
def down38Rows (jb : PathJob) : Res RowWrites :=
  planeOf jb fun j =>
    let b : Int := 8 * (j / 3 : Nat)
    if j / 3 < jobHd jb / 3 then
      match j % 3 with
      | 0 => down38K3 jb b (b + 1) (b + 2)
      | 1 => down38K3 jb (b + 3) (b + 4) (b + 5)
      | _ => down38K2 jb (b + 6) (b + 7)
    else if jobHd jb % 3 = 2 then
      match j % 3 with
      | 0 => down38K3 jb b (b + 1) (b + 2)
      | _ => down38K3 jb (b + 3) (b + 3) (b + 3)
    else down38K3 jb b b b

/-- The accumulator row of `bh` source rows from row `iy` on, cleared first (R229, R230). -/
def accumulate (jb : PathJob) (iy : Int) : Nat → Res Row
  | 0 => .ok (List.replicate (jobW jb) 0)
  | k + 1 => do
    let acc ← accumulate jb iy k
    addRow (sampleWidth jb.op) (jobRow jb (iy + k)) acc (jobW jb)

/-- The row loop of P.BOX (R229): n rows from row j on, at row coordinate yj. -/
def boxRowsFrom (jb : PathJob) (st : ScaleStep) : Nat → Nat → Int → Res RowWrites
  | 0, _, _ => .ok []
  | n + 1, j, yj => do
    let iy := wholePart yj
    let ynext := min (yj + st.dy) ((jobH jb : Int) * 2 ^ 16)
    let bh := min1 (wholePart ynext - iy)
    let acc ← accumulate jb iy bh
    let d ← addCols jb.cfg.boxRound (sampleWidth jb.op) acc bh (jobWd jb) st.x st.dx
    let rest ← boxRowsFrom jb st n (j + 1) ynext
    .ok ((j, d) :: rest)

/-- P.BOX (R229). -/
def boxRows (jb : PathJob) (st : ScaleStep) : Res RowWrites :=
  boxRowsFrom jb st (jobHd jb) 0 st.y

/-- A source whose samples above 4095 raise ERR_RANGE12 (R243). -/
def rangeChecked (s : Reader) : Reader := fun c => do
  let v ← s c
  if 4095 < v then .error .range12 else .ok v

/-- P.UP2_LINEAR (R235), over the rows `src r`. -/
def up2LinearRows (jb : PathJob) (src : Int → Reader) : Res RowWrites :=
  if jobHd jb = 1 then do
    let d ← up2Linear (src (((jobH jb : Int) - 1).tdiv 2)) (jobWd jb)
    .ok [(0, d)]
  else
    let dy := fixedDiv ((jobH jb : Int) - 1) ((jobHd jb : Int) - 1)
    planeOf jb fun j => up2Linear (src (wholePart (32767 + j * dy))) (jobWd jb)

/-- The interior row pairs 2i + 1, 2i + 2 of P.UP2_BILINEAR for i < k (R238). -/
def up2BilinearPairs (jb : PathJob) (src : Int → Reader) : Nat → Res RowWrites
  | 0 => .ok []
  | k + 1 => do
    let before ← up2BilinearPairs jb src k
    let (d, e) ← up2Bilinear (src k) (src (k + 1)) (jobWd jb)
    .ok (before ++ [(2 * k + 1, d), (2 * k + 2, e)])

/-- P.UP2_BILINEAR (R238), over the rows `src r`: the edge rows are written as d and as e. -/
def up2BilinearRows (jb : PathJob) (src : Int → Reader) : Res RowWrites := do
  let (d, e) ← up2Bilinear (src 0) (src 0) (jobWd jb)
  let middle ← up2BilinearPairs jb src (jobH jb - 1)
  if jobHd jb % 2 = 0 then do
    let last : Int := (jobH jb : Int) - 1
    let (d', e') ← up2Bilinear (src last) (src last) (jobWd jb)
    .ok ((0, d) :: (0, e) :: middle ++ [(jobHd jb - 1, d'), (jobHd jb - 1, e')])
  else .ok ((0, d) :: (0, e) :: middle)

/-- A 12-bit 2x path (R241 to R243): an index outside the plane is reported before a sample out of range (R311). -/
def rangeCheckedRows (jb : PathJob) (rows : (Int → Reader) → Res RowWrites) : Res RowWrites := do
  let w ← rows (jobRow jb)
  let _ ← rows fun r => rangeChecked (jobRow jb r)
  .ok w

/-- P.BILINEAR_UP (R247): under Bilinear the fraction blends two filtered rows, otherwise the row is point-sampled. -/
def bilinearUpRows (jb : PathJob) (st : ScaleStep) : Res RowWrites :=
  let maxY : Int := ((jobH jb : Int) - 1) * 2 ^ 16
  planeOf jb fun j =>
    if jb.mode = .bilinear then
      let yj := j * st.dy
      let yi := wholePart yj
      let f8 := ((yj >>> (8 : Nat)) % 256).toNat
      do
        let s ← horizontalFilter jb st (jobRow jb yi)
        if f8 = 0 then .ok s
        else do
          let t ← horizontalFilter jb st (jobRow jb (yi + 1))
          interp (listRow s) (listRow t) (jobWd jb) f8
    else
      let r := min (wholePart (min st.y maxY + j * st.dy)) ((jobH jb : Int) - 1)
      horizontalFilter jb st (jobRow jb r)

/-- P.BILINEAR_DOWN (R252): under Bilinear the interpolated row goes to scratch, unnarrowed, before the column filter. -/
def bilinearDownRows (jb : PathJob) (st : ScaleStep) : Res RowWrites :=
  let maxY : Int := ((jobH jb : Int) - 1) * 2 ^ 16
  planeOf jb fun j =>
    let yj := min (st.y + j * st.dy) maxY
    let yi := wholePart yj
    if jb.mode = .bilinear then do
      let f8 := ((yj >>> (8 : Nat)) % 256).toNat
      let tmp ← interp (jobRow jb yi) (jobRow jb (yi + 1)) (jobW jb) f8
      horizontalFilter jb st (listRow tmp)
    else horizontalFilter jb st (jobRow jb yi)

/-- P.SIMPLE (R253). -/
def simpleRows (jb : PathJob) (st : ScaleStep) : Res RowWrites :=
  planeOf jb fun j => colsPoint (jobRow jb (wholePart (st.y + j * st.dy))) (jobWd jb) st.x st.dx

/-- The output rows of a path with its ScaleStep. -/
def pathRows (path : PathCode) (jb : PathJob) (st : ScaleStep) : Res RowWrites :=
  match path with
  | .copy => copyRows jb
  | .vertical => verticalRows jb st
  | .down34 => down34Rows jb
  | .down2 => down2Rows jb
  | .down38 => down38Rows jb
  | .down4 => down4Rows jb
  | .box => boxRows jb st
  | .up2Linear => up2LinearRows jb (jobRow jb)
  | .up2Bilinear => up2BilinearRows jb (jobRow jb)
  | .bilinearUp => bilinearUpRows jb st
  | .bilinearDown => bilinearDownRows jb st
  | .simple => simpleRows jb st
  | .up2Linear12 => rangeCheckedRows jb (up2LinearRows jb)
  | .up2Bilinear12 => rangeCheckedRows jb (up2BilinearRows jb)

/-! ### Output -/

/-- The value OUT stores (R212): narrowed for SCALE16TO8. -/
def outValue (op : ScaleOp) (pl : Planes) (v : Nat) : Nat :=
  match op with
  | .scale16to8 => narrow v pl.scale.toNat
  | .scale8 | .scale16 | .scale12 => v

/-- OUT(r, c), OUT(r, c + 1), … of a row (R212, R66). -/
def storeRow (op : ScaleOp) (pl : Planes) (r : Nat) : Nat → Row → Memory → Memory
  | _, [], m => m
  | c, v :: rest, m =>
    storeRow op pl r (c + 1) rest (storeSample m (dstAddr op pl r c).toNat (dstBytes op) (outValue op pl v))

/-- The row writes of a path, in order. -/
def storeRows (op : ScaleOp) (pl : Planes) : RowWrites → Memory → Memory
  | [], m => m
  | (r, d) :: rest, m => storeRows op pl rest (storeRow op pl r 0 d m)

/-- Every write stays inside the destination plane (R67). -/
def writesInside (pl : Planes) (w : RowWrites) : Bool :=
  w.all fun rd => rd.1 < dstHeight pl && rd.2.length ≤ dstWidth pl

/-- The rows of a path, with the destination bounds of R67. -/
def pathWrites (path : PathCode) (jb : PathJob) (st : ScaleStep) : Res RowWrites := do
  let w ← pathRows path jb st
  if writesInside jb.planes w then .ok w else .error .oob

/-! ### A path as an operation -/

/-- From PostCheck to the last destination write (R266): PATH is set, the checks run, STEP_* takes the path's step, and the
rows go to memory. An error while the path runs leaves the footprint unspecified (R267). DESIGN CHOICE (log 5): on the
short-circuit of COPY the STEP_* registers stay as they are, which is 0 in every command; R210 gives "STEP_* = 0", and
R266 returns before it writes them. -/
def runPath (path : PathCode) (op : ScaleOp) (pl : Planes) (m : FilterMode) (s : State) : State × Option Err :=
  let s1 := setPath path s
  match postCheck s.cfg op pl path with
  | .fails e => (s1, some e)
  | .shortCircuit => (s1, none)
  | .runs =>
    let st := pathStep pl path m
    let s2 := setStep st s1
    match pathWrites path { cfg := s.cfg, op := op, planes := pl, mode := m, mem := s.mem } st with
    | .ok w => ({ s2 with mem := storeRows op pl w s2.mem, scratchGen := s2.scratchGen + 1 }, none)
    | .error e => (scrambleDst op pl s2, some e)

/-- The ratio that an exact-ratio path handles (R145, R147, R155); the other paths have none. -/
def exactRatio (path : PathCode) (pl : Planes) : Bool :=
  let w := pl.srcW.toInt
  let h : Int := srcHeight pl
  let wd := pl.dstW.toInt
  let hd := pl.dstH.toInt
  match path with
  | .down34 => ratio34 w h wd hd
  | .down2 => ratio2 w h wd hd
  | .down38 => ratio38 w h wd hd
  | .down4 => ratio4 w h wd hd
  | .up2Linear | .up2Linear12 => doubles w wd
  | .up2Bilinear | .up2Bilinear12 => doubles h hd && doubles w wd
  | .copy | .vertical | .box | .bilinearUp | .bilinearDown | .simple => true

/-- The effective modes for which the path's rule gives rows (R218, R247, R252, R151). -/
def modeDefined (path : PathCode) (m : FilterMode) : Bool :=
  match path with
  | .down4 => m = .none || m = .box
  | .bilinearUp | .bilinearDown => m = .linear || m = .bilinear
  | .copy | .vertical | .down34 | .down2 | .down38 | .box => true
  | .up2Linear | .up2Bilinear | .simple | .up2Linear12 | .up2Bilinear12 => true

/-- The preconditions of a path (R314, U3): the checks before dispatch have passed, an exact-ratio path has its ratio, and
the mode is one the path's rule defines. -/
def pathReady (path : PathCode) (op : ScaleOp) (pl : Planes) (m : FilterMode) (cfg : Config) : Bool :=
  preCheck cfg op pl = none && exactRatio path pl && modeDefined path m

/-- A P operation: the path runs on the given planes; an error ends the running command (R300). Outside its preconditions
the call is refused (U3). -/
def execPath (path : PathCode) (op : ScaleOp) (pl : Planes) (m : FilterMode) (s : State) : Result :=
  if pathReady path op pl m s.cfg then
    match runPath path op pl m s with
    | (t, none) => .next t
    | (t, some e) => .next (endCommand (some e) t)
  else .refused .pathPrecondition

/-- P.COPY (R210). -/
def execPCopy (op : ScaleOp) (pl : Planes) (m : FilterMode) (s : State) : Result := execPath .copy op pl m s

/-- P.VERTICAL (R213, R214). -/
def execPVertical (op : ScaleOp) (pl : Planes) (m : FilterMode) (s : State) : Result := execPath .vertical op pl m s

/-- P.DOWN34 (R220). -/
def execPDown34 (op : ScaleOp) (pl : Planes) (m : FilterMode) (s : State) : Result := execPath .down34 op pl m s

/-- P.DOWN2 (R216). -/
def execPDown2 (op : ScaleOp) (pl : Planes) (m : FilterMode) (s : State) : Result := execPath .down2 op pl m s

/-- P.DOWN38 (R223). -/
def execPDown38 (op : ScaleOp) (pl : Planes) (m : FilterMode) (s : State) : Result := execPath .down38 op pl m s

/-- P.DOWN4 (R218). -/
def execPDown4 (op : ScaleOp) (pl : Planes) (m : FilterMode) (s : State) : Result := execPath .down4 op pl m s

/-- P.BOX (R228 to R230). -/
def execPBox (op : ScaleOp) (pl : Planes) (m : FilterMode) (s : State) : Result := execPath .box op pl m s

/-- P.UP2_LINEAR (R235). -/
def execPUp2Linear (op : ScaleOp) (pl : Planes) (m : FilterMode) (s : State) : Result := execPath .up2Linear op pl m s

/-- P.UP2_BILINEAR (R238). -/
def execPUp2Bilinear (op : ScaleOp) (pl : Planes) (m : FilterMode) (s : State) : Result :=
  execPath .up2Bilinear op pl m s

/-- P.BILINEAR_UP (R245 to R247). -/
def execPBilinearUp (op : ScaleOp) (pl : Planes) (m : FilterMode) (s : State) : Result := execPath .bilinearUp op pl m s

/-- P.BILINEAR_DOWN (R250 to R252). -/
def execPBilinearDown (op : ScaleOp) (pl : Planes) (m : FilterMode) (s : State) : Result :=
  execPath .bilinearDown op pl m s

/-- P.SIMPLE (R253). -/
def execPSimple (op : ScaleOp) (pl : Planes) (m : FilterMode) (s : State) : Result := execPath .simple op pl m s

/-- P.UP2_LINEAR_12 (R241): SCALE12 only. -/
def execPUp2Linear12 (pl : Planes) (m : FilterMode) (s : State) : Result := execPath .up2Linear12 .scale12 pl m s

/-- P.UP2_BILINEAR_12 (R242): SCALE12 only. -/
def execPUp2Bilinear12 (pl : Planes) (m : FilterMode) (s : State) : Result := execPath .up2Bilinear12 .scale12 pl m s

end Sys2Proof.Machine
end

