-- ==== Sys2Proof/Machine/Commands.lean ====
section
/-! DEFINITION. The host commands (44_commands.md): Execute(cmd) of R266 and the meaning of each command. -/

namespace Sys2Proof.Machine

/-- Execute(cmd) for a scaling command (R266, R342): the checks before dispatch, dispatch, the path, and the end of the
command. -/
def runCommand (op : ScaleOp) (f : FilterMode) (s : State) : State :=
  let pl := commandPlanes s
  let s0 := clearStatus s
  match preCheck s.cfg op pl with
  | some e => raiseBeforeDispatch e s
  | none =>
    let sel := dispatch op pl f
    let (t, e) := runPath sel.path op pl sel.mode (setEffFilter sel.mode s0)
    endCommand e t

/-- NOP (R260): completes with no effect on memory. -/
def execNop (_ : FilterMode) (s : State) : Result := .next (endCommand none (clearStatus s))

/-- SCALE8 (R261). -/
def execScale8 (f : FilterMode) (s : State) : Result := .next (runCommand .scale8 f s)

/-- SCALE16 (R262). -/
def execScale16 (f : FilterMode) (s : State) : Result := .next (runCommand .scale16 f s)

/-- SCALE12 (R264). -/
def execScale12 (f : FilterMode) (s : State) : Result := .next (runCommand .scale12 f s)

/-- SCALE16TO8 (R263). -/
def execScale16to8 (f : FilterMode) (s : State) : Result := .next (runCommand .scale16to8 f s)

/-- OP = 0x5, reserved: ERR_CMD (R268, R301). -/
def execIllegalOp5 (_ : FilterMode) (s : State) : Result := .next (raiseBeforeDispatch .cmd s)

/-- OP = 0x6 and 0x7, reserved: ERR_CMD (R268, R301). -/
def execIllegalOp67 (_ : FilterMode) (_ : BitVec 1) (s : State) : Result := .next (raiseBeforeDispatch .cmd s)

/-- OP = 0x8 to 0xF, reserved: ERR_CMD (R268, R301). -/
def execIllegalOp8F (_ : FilterMode) (_ : BitVec 3) (s : State) : Result := .next (raiseBeforeDispatch .cmd s)

/-- A latched word that is no instruction: RSV ≠ 0 raises ERR_CMD (R84 step 1). START is 1 in every latched word. -/
def execRejected (_ : Reject) (s : State) : Result := .next (raiseBeforeDispatch .cmd s)

end Sys2Proof.Machine
end

