-- ==== Sys2Proof/Machine/Dispatch.lean ====
section
/-! DEFINITION. One arm per constructor of Instr, each one direct call of its meaning. -/

namespace Sys2Proof.Machine

open Sys2Proof

/-- The meaning of an instruction in a state. -/
def exec (i : Instr) (s : State) : Host.Outcome State Fault Refusal :=
  match i with
  -- host commands (44_commands.md)
  | .nop f => Sys2Proof.Machine.execNop f s
  | .scale8 f => Sys2Proof.Machine.execScale8 f s
  | .scale16 f => Sys2Proof.Machine.execScale16 f s
  | .scale12 f => Sys2Proof.Machine.execScale12 f s
  | .scale16to8 f => Sys2Proof.Machine.execScale16to8 f s
  -- reserved OP codes (R84, R268)
  | .illegalOp5 f => Sys2Proof.Machine.execIllegalOp5 f s
  | .illegalOp67 f o => Sys2Proof.Machine.execIllegalOp67 f o s
  | .illegalOp8F f o => Sys2Proof.Machine.execIllegalOp8F f o s
  -- fixed_point_coordinate_stepper (40_fixed_point.md)
  | .fxDiv num den => Sys2Proof.Machine.execFxDiv num den s
  | .fxDiv1 num den => Sys2Proof.Machine.execFxDiv1 num den s
  | .fxCenter d a => Sys2Proof.Machine.execFxCenter d a s
  | .fxSlope srcW srcH dstW dstH m => Sys2Proof.Machine.execFxSlope srcW srcH dstW dstH m s
  -- fast_path_ratio_selector (41_filter_reduce_dispatch.md)
  | .frReduce srcW srcH dstW dstH m => Sys2Proof.Machine.execFrReduce srcW srcH dstW dstH m s
  | .frSelect srcW srcH dstW dstH f => Sys2Proof.Machine.execFrSelect srcW srcH dstW dstH f s
  | .frSelect12 srcW srcH dstW dstH f => Sys2Proof.Machine.execFrSelect12 srcW srcH dstW dstH f s
  -- row_sampler_bank (42_row_kernels.md)
  | .kNarrow v scale => Sys2Proof.Machine.execKNarrow v scale s
  | .kDown2Point sw a n => Sys2Proof.Machine.execKDown2Point sw a n s
  | .kDown2Linear sw a n => Sys2Proof.Machine.execKDown2Linear sw a n s
  | .kDown2Box sw a b n => Sys2Proof.Machine.execKDown2Box sw a b n s
  | .kDown4Point sw a n => Sys2Proof.Machine.execKDown4Point sw a n s
  | .kDown4Box sw s0 s1 s2 s3 n => Sys2Proof.Machine.execKDown4Box sw s0 s1 s2 s3 n s
  | .kDown34Point sw a n => Sys2Proof.Machine.execKDown34Point sw a n s
  | .kDown34H sw a g => Sys2Proof.Machine.execKDown34H sw a g s
  | .kDown34Box0 sw a b n => Sys2Proof.Machine.execKDown34Box0 sw a b n s
  | .kDown34Box1 sw a b n => Sys2Proof.Machine.execKDown34Box1 sw a b n s
  | .kDown38Point sw a n => Sys2Proof.Machine.execKDown38Point sw a n s
  | .kDown38Box3 sw a b c n => Sys2Proof.Machine.execKDown38Box3 sw a b c n s
  | .kDown38Box2 sw a b n => Sys2Proof.Machine.execKDown38Box2 sw a b n s
  | .kUp2LinearCore sw a p d o => Sys2Proof.Machine.execKUp2LinearCore sw a p d o s
  | .kUp2Linear sw a n => Sys2Proof.Machine.execKUp2Linear sw a n s
  | .kUp2BilinearCore sw a b p d e o => Sys2Proof.Machine.execKUp2BilinearCore sw a b p d e o s
  | .kUp2Bilinear sw a b n => Sys2Proof.Machine.execKUp2Bilinear sw a b n s
  | .kColsPoint sw a n x dx => Sys2Proof.Machine.execKColsPoint sw a n x dx s
  | .kColsBlend8 a n x dx => Sys2Proof.Machine.execKColsBlend8 a n x dx s
  | .kColsBlend16 a n x dx => Sys2Proof.Machine.execKColsBlend16 a n x dx s
  | .kInterp sw a b n f8 => Sys2Proof.Machine.execKInterp sw a b n f8 s
  | .kAddrow sw a acc w => Sys2Proof.Machine.execKAddrow sw a acc w s
  | .kAddcols sw acc bh n x dx => Sys2Proof.Machine.execKAddcols sw acc bh n x dx s
  | .kBoxdiv sw sum sc => Sys2Proof.Machine.execKBoxdiv sw sum sc s
  -- plane paths (43_plane_paths.md); `op` fixes the widths, `pl` is the latched plane pair, `m` the effective mode
  | .pCopy op pl m => Sys2Proof.Machine.execPCopy op pl m s
  | .pVertical op pl m => Sys2Proof.Machine.execPVertical op pl m s
  | .pDown34 op pl m => Sys2Proof.Machine.execPDown34 op pl m s
  | .pDown2 op pl m => Sys2Proof.Machine.execPDown2 op pl m s
  | .pDown38 op pl m => Sys2Proof.Machine.execPDown38 op pl m s
  | .pDown4 op pl m => Sys2Proof.Machine.execPDown4 op pl m s
  | .pBox op pl m => Sys2Proof.Machine.execPBox op pl m s
  | .pUp2Linear op pl m => Sys2Proof.Machine.execPUp2Linear op pl m s
  | .pUp2Bilinear op pl m => Sys2Proof.Machine.execPUp2Bilinear op pl m s
  | .pBilinearUp op pl m => Sys2Proof.Machine.execPBilinearUp op pl m s
  | .pBilinearDown op pl m => Sys2Proof.Machine.execPBilinearDown op pl m s
  | .pSimple op pl m => Sys2Proof.Machine.execPSimple op pl m s
  | .pUp2Linear12 pl m => Sys2Proof.Machine.execPUp2Linear12 pl m s
  | .pUp2Bilinear12 pl m => Sys2Proof.Machine.execPUp2Bilinear12 pl m s

end Sys2Proof.Machine
end

