-- ==== Sys2Proof/Machine/HostPort.lean ====
section
/-! DEFINITION. The host's side (R340): the register map of 10_state.md section 2, register reads and writes, host memory
accesses with the duty of R73, and the reset input (R330). -/

namespace Sys2Proof.Machine

/-- The registers of the block, by name. -/
inductive Reg where
  | cmd
  | status
  | srcBaseLo
  | srcBaseHi
  | srcStride
  | srcW
  | srcH
  | dstBaseLo
  | dstBaseHi
  | dstStride
  | dstW
  | dstH
  | scale
  | stepX
  | stepY
  | stepDX
  | stepDY
  deriving DecidableEq, Repr

/-- The register at an offset of the block, none at a reserved offset (R87). -/
def regAt (off : Nat) : Option Reg :=
  match off with
  | 0x00 => some .cmd
  | 0x04 => some .status
  | 0x08 => some .srcBaseLo
  | 0x0C => some .srcBaseHi
  | 0x10 => some .srcStride
  | 0x14 => some .srcW
  | 0x18 => some .srcH
  | 0x20 => some .dstBaseLo
  | 0x24 => some .dstBaseHi
  | 0x28 => some .dstStride
  | 0x2C => some .dstW
  | 0x30 => some .dstH
  | 0x34 => some .scale
  | 0x38 => some .stepX
  | 0x3C => some .stepY
  | 0x40 => some .stepDX
  | 0x44 => some .stepDY
  | _ => none

/-- What a read of a register returns (R31): CMD holds no state and reads 0 (R32). -/
def readReg (r : Reg) (s : State) : Word :=
  match r with
  | .cmd => 0#32
  | .status => statusWord s
  | .srcBaseLo => s.srcBaseLo
  | .srcBaseHi => s.srcBaseHi
  | .srcStride => s.srcStride
  | .srcW => s.srcW
  | .srcH => s.srcH
  | .dstBaseLo => s.dstBaseLo
  | .dstBaseHi => s.dstBaseHi
  | .dstStride => s.dstStride
  | .dstW => s.dstW
  | .dstH => s.dstH
  | .scale => s.scale.setWidth 32
  | .stepX => s.stepX
  | .stepY => s.stepY
  | .stepDX => s.stepDX
  | .stepDY => s.stepDY

/-- A read at an offset: reserved offsets return 0 (R31). -/
def readOffset (off : Nat) (s : State) : Word :=
  match regAt off with
  | some r => readReg r s
  | none => 0#32

/-- A write of a register while Idle: read-only registers ignore it, CMD starts a command when START = 1 (R32). -/
def writeRegIdle (r : Reg) (v : Word) (s : State) : State :=
  match r with
  | .cmd => if cmdStart v then startCommand v s else s
  | .status | .stepX | .stepY | .stepDX | .stepDY => s
  | .srcBaseLo => { s with srcBaseLo := v }
  | .srcBaseHi => { s with srcBaseHi := v }
  | .srcStride => { s with srcStride := v }
  | .srcW => { s with srcW := v }
  | .srcH => { s with srcH := v }
  | .dstBaseLo => { s with dstBaseLo := v }
  | .dstBaseHi => { s with dstBaseHi := v }
  | .dstStride => { s with dstStride := v }
  | .dstW => { s with dstW := v }
  | .dstH => { s with dstH := v }
  | .scale => { s with scale := v.setWidth 16 }

/-- A write at an offset: ignored while BUSY = 1 (R31, R344) and at reserved offsets (R31). -/
def writeOffset (off : Nat) (v : Word) (s : State) : State :=
  if isBusy s then s
  else match regAt off with
    | some r => writeRegIdle r v s
    | none => s

/-- Where an address of the register space falls: its offset from RB, if it is inside the 0x100-byte block. DESIGN CHOICE
(log 24): the spec gives neither the width of RB nor that of the register space (R31, R60, R72); the model takes 64 bits,
and the offset is taken modulo 2^64, so a block whose RB lies in the last 0xFF bytes goes on at address 0. -/
def blockOffset (cfg : Config) (addr : BitVec 64) : Option Nat :=
  let off := (addr - cfg.regBase).toNat
  if off < 0x100 then some off else none

/-- A host register read (R340); an access outside the block does not reach PRS. DESIGN CHOICE (log 10): RB's own
alignment is open, and an access counts as aligned when its offset from RB is a multiple of 4. -/
def hostRegRead (addr : BitVec 64) (s : State) : Result :=
  match blockOffset s.cfg addr with
  | none => .next s
  | some off =>
    if off % 4 ≠ 0 then .fault .hostMisaligned
    else .next { s with readData := readOffset off s }

/-- A host register write (R340). DESIGN CHOICE (log 10): aligned as for a read, by the offset from RB. -/
def hostRegWrite (addr : BitVec 64) (v : Word) (s : State) : Result :=
  match blockOffset s.cfg addr with
  | none => .next s
  | some off =>
    if off % 4 ≠ 0 then .fault .hostMisaligned
    else .next (writeOffset off v s)

/-- The byte belongs to the destination footprint of the running command (R68). -/
def inBusyDst (s : State) (a : Nat) : Bool :=
  match s.phase with
  | .idle => false
  | .busy c _ =>
    match latchedScaleOp c with
    | some op => inSpans (dstSpans op c.planes) a
    | none => false

/-- The byte belongs to a footprint of the running command (R68). -/
def inBusyFootprint (s : State) (a : Nat) : Bool :=
  match s.phase with
  | .idle => false
  | .busy c _ =>
    match latchedScaleOp c with
    | some op => inSpans (srcSpans op c.planes) a || inSpans (dstSpans op c.planes) a
    | none => false

/-- A host read of a byte of host memory: of the destination footprint during BUSY "unspecified (any value)" (R73).
DESIGN CHOICE (log 25): between the engine step and the host's read of STATUS, where R73's duty still runs and R74 orders
nothing, the read returns the byte in memory, as the step left it. -/
def hostMemRead (addr : BitVec 64) (s : State) : Result :=
  let a := addr.toNat
  if memValid s.cfg a = false then .fault .hostNoMemory
  else if inBusyDst s a then .next { s with memData := Config.freeRead s.free, free := s.free + 1 }
  else .next { s with memData := Memory.read s.mem a }

/-- The running command's footprints have been written by the host (R73). -/
def disturb (s : State) : State :=
  match s.phase with
  | .idle => s
  | .busy c _ => { s with phase := .busy c true }

/-- A host write of a byte of host memory: into a footprint during BUSY it makes the whole destination footprint
unspecified after the command (R73). DESIGN CHOICE (log 25): after the engine step it is a plain write, though the host
has not read STATUS yet. -/
def hostMemWrite (addr : BitVec 64) (v : Byte) (s : State) : Result :=
  let a := addr.toNat
  if memValid s.cfg a = false then .fault .hostNoMemory
  else
    let t : State := { s with mem := Memory.write s.mem a v }
    if inBusyFootprint s a then .next (disturb t) else .next t

/-- One host action. -/
def hostStep (a : HostAction) (s : State) : Result :=
  match a with
  | .regRead addr => hostRegRead addr s
  | .regWrite addr v => hostRegWrite addr v s
  | .memRead addr => hostMemRead addr s
  | .memWrite addr v => hostMemWrite addr v s
  | .reset => .next (resetInput s)

/-! ### Host syntax (R89): what the host's lines put before the machine -/

/-- The offset of a register (10_state.md section 2). -/
def regOffset (r : Reg) : Nat :=
  match r with
  | .cmd => 0x00
  | .status => 0x04
  | .srcBaseLo => 0x08
  | .srcBaseHi => 0x0C
  | .srcStride => 0x10
  | .srcW => 0x14
  | .srcH => 0x18
  | .dstBaseLo => 0x20
  | .dstBaseHi => 0x24
  | .dstStride => 0x28
  | .dstW => 0x2C
  | .dstH => 0x30
  | .scale => 0x34
  | .stepX => 0x38
  | .stepY => 0x3C
  | .stepDX => 0x40
  | .stepDY => 0x44

/-- The address of a register in the platform's register space: RB plus its offset (R72), modulo 2^64 (log 24). -/
def regAddr (cfg : Config) (r : Reg) : BitVec 64 := cfg.regBase + BitVec.ofNat 64 (regOffset r)

/-- `wr NAME, value`. -/
def hostWr (cfg : Config) (r : Reg) (v : Word) : List Event := [.host (.regWrite (regAddr cfg r) v)]

/-- `rd NAME`. -/
def hostRd (cfg : Config) (r : Reg) : List Event := [.host (.regRead (regAddr cfg r))]

/-- `start OP, FILTER`. -/
def hostStart (cfg : Config) (op : BitVec 4) (f : FilterMode) : List Event := hostWr cfg .cmd (commandWord op f)

/-- `wait`: the engine takes its step and the host's last read of STATUS returns BUSY = 0 (R342, R343). -/
def hostWait (cfg : Config) : List Event := .engine :: hostRd cfg .status

/-- `scale OP, FILTER, src, sstride, sw, sh, dst, dstride, dw, dh`. -/
def hostScale (cfg : Config) (op : BitVec 4) (f : FilterMode) (pl : Planes) : List Event :=
  hostWr cfg .srcBaseLo (pl.srcBase.extractLsb' 0 32) ++ hostWr cfg .srcBaseHi (pl.srcBase.extractLsb' 32 32) ++
  hostWr cfg .srcStride pl.srcStride ++ hostWr cfg .srcW pl.srcW ++ hostWr cfg .srcH pl.srcH ++
  hostWr cfg .dstBaseLo (pl.dstBase.extractLsb' 0 32) ++ hostWr cfg .dstBaseHi (pl.dstBase.extractLsb' 32 32) ++
  hostWr cfg .dstStride pl.dstStride ++ hostWr cfg .dstW pl.dstW ++ hostWr cfg .dstH pl.dstH ++
  hostStart cfg op f ++ hostWait cfg

end Sys2Proof.Machine
end

