-- ==== Sys2Proof/Machine/Step.lean ====
section
/-! DEFINITION. One step of the machine (R340, R342): the next host access, or the engine step of the running command. -/

namespace Sys2Proof.Machine

/-- The engine step of phase Busy (R342): the latched word is decoded and run to completion. -/
def engineStep (c : Latched) (s : State) : Result :=
  match decode (latchedWord c) with
  | .ok i => exec i s
  | .error r => execRejected r s

/-- The next step. `pending` says whether the host or the engine moves next; with nothing pending a running command takes
its engine step, and an Idle machine does nothing (R333). -/
def step (s : State) : Host.Outcome State Fault Refusal :=
  match s.pending with
  | .host a :: rest => hostStep a { s with pending := rest }
  | .engine :: rest =>
    match s.phase with
    | .busy c _ => engineStep c { s with pending := rest }
    | .idle => .next { s with pending := rest }
  | [] =>
    match s.phase with
    | .busy c _ => engineStep c s
    | .idle => .next s

/-- The state in which the word has just been started, so that the very next step runs it (R340, log 8): START latches it
with the parameter registers as they stand, and the engine has the next turn. -/
def State.withFetchWord (s : State) (nbits w : Nat) : State :=
  let t := startCommand (BitVec.ofNat 32 (w % 2 ^ nbits)) s
  { t with pending := match s.pending with
      | [] => []
      | p => .engine :: p }

end Sys2Proof.Machine
end

