-- ==== Sys2Proof/WellFormed.lean ====
section
/-! DEFINITION. Well-formed instructions: the operand domains that the rules and the opcode table state. A host command has
no operand outside its domain; the internal operations have the domains of their own rules. -/

namespace Sys2Proof

/-- MAXV(SW) = 2^SW - 1 (R6). -/
def maxSample : SampleWidth → Nat
  | .w8 => 255
  | .w16 => 65535

/-- Every sample of the row lies in [0, MAXV(SW)] (R16). -/
def rowOk (sw : SampleWidth) (s : Row) : Bool :=
  s.all (· ≤ maxSample sw)

/-- Every entry of an accumulator row fits its width: 16 bits for SW = 8, 32 bits for SW = 16 (R185). -/
def accOk (sw : SampleWidth) (acc : Row) : Bool :=
  match sw with
  | .w8 => acc.all (· < 2 ^ 16)
  | .w16 => acc.all (· < 2 ^ 32)

/-- A dimension that may be negative to ask for mirroring: 1 ≤ |v| ≤ 32768 (R24, R25, R7). -/
def signedDimOk (v : Int) : Bool := v ≠ 0 ∧ v.natAbs ≤ 32768

/-- A destination dimension: 1 ≤ v ≤ 32768 (R28, R29, R7). -/
def dstDimOk (v : Int) : Bool := 1 ≤ v ∧ v ≤ 32768

/-- The plane pair a path is given has passed the checks that come before dispatch (R302, R303, R310). -/
def planesOk (op : ScaleOp) (pl : Planes) : Bool :=
  signedDimOk pl.srcW.toInt && signedDimOk pl.srcH.toInt && dstDimOk pl.dstW.toInt && dstDimOk pl.dstH.toInt &&
  (op ≠ .scale16to8 || (256 ≤ pl.scale.toNat && pl.scale.toNat ≤ 32768)) &&
  (op = .scale8 || !pl.srcBase.getLsbD 0) &&
  (op = .scale8 || op = .scale16to8 || !pl.dstBase.getLsbD 0)

/-- The operand domains, row by row of the opcode table. -/
def Instr.wf : Instr → Bool
  | .nop _ | .scale8 _ | .scale16 _ | .scale12 _ | .scale16to8 _ => true
  | .illegalOp5 _ | .illegalOp67 _ _ | .illegalOp8F _ _ => true
  | .fxDiv _ den => 1 ≤ den
  | .fxDiv1 num den => 1 ≤ num && 2 ≤ den
  | .fxCenter d _ => -(2 ^ 31) ≤ d && d < 2 ^ 31
  | .fxSlope srcW srcH dstW dstH _ => srcW ≠ 0 && 1 ≤ srcH && 1 ≤ dstW && 1 ≤ dstH
  | .frReduce srcW srcH dstW dstH _ => srcW ≠ 0 && srcH ≠ 0 && 1 ≤ dstW && 1 ≤ dstH
  | .frSelect srcW srcH dstW dstH _ => srcW ≠ 0 && srcH ≠ 0 && 1 ≤ dstW && 1 ≤ dstH
  | .frSelect12 srcW srcH dstW dstH _ => srcW ≠ 0 && srcH ≠ 0 && 1 ≤ dstW && 1 ≤ dstH
  | .kNarrow v scale => v ≤ 65535 && 256 ≤ scale && scale ≤ 32768
  | .kDown2Point sw s _ => rowOk sw s
  | .kDown2Linear sw s _ => rowOk sw s
  | .kDown2Box sw s t _ => rowOk sw s && rowOk sw t
  | .kDown4Point sw s _ => rowOk sw s
  | .kDown4Box sw s0 s1 s2 s3 _ => rowOk sw s0 && rowOk sw s1 && rowOk sw s2 && rowOk sw s3
  | .kDown34Point sw s n => rowOk sw s && n % 3 = 0
  | .kDown34H sw s _ => rowOk sw s
  | .kDown34Box0 sw s t n => rowOk sw s && rowOk sw t && n % 3 = 0
  | .kDown34Box1 sw s t n => rowOk sw s && rowOk sw t && n % 3 = 0
  | .kDown38Point sw s n => rowOk sw s && n % 3 = 0
  | .kDown38Box3 sw s t u n => rowOk sw s && rowOk sw t && rowOk sw u && n % 3 = 0
  | .kDown38Box2 sw s t n => rowOk sw s && rowOk sw t && n % 3 = 0
  | .kUp2LinearCore sw s _ d _ => rowOk sw s && rowOk sw d
  | .kUp2Linear sw s n => rowOk sw s && 1 ≤ n
  | .kUp2BilinearCore sw s t _ d e _ => rowOk sw s && rowOk sw t && rowOk sw d && rowOk sw e
  | .kUp2Bilinear sw s t n => rowOk sw s && rowOk sw t && 1 ≤ n
  | .kColsPoint sw s _ _ _ => rowOk sw s
  | .kColsBlend8 s _ _ _ => rowOk .w8 s
  | .kColsBlend16 s _ _ _ => rowOk .w16 s
  | .kInterp sw s t _ _ => rowOk sw s && rowOk sw t
  | .kAddrow sw s acc _ => rowOk sw s && accOk sw acc
  | .kAddcols sw acc bh _ _ dx => accOk sw acc && 1 ≤ bh && 1 ≤ dx
  | .kBoxdiv _ _ sc => sc ≤ 65536
  | .pCopy op pl _ | .pVertical op pl _ | .pDown34 op pl _ | .pDown2 op pl _ => planesOk op pl
  | .pDown38 op pl _ | .pDown4 op pl _ | .pBox op pl _ | .pUp2Linear op pl _ => planesOk op pl
  | .pUp2Bilinear op pl _ | .pBilinearUp op pl _ | .pBilinearDown op pl _ | .pSimple op pl _ => planesOk op pl
  | .pUp2Linear12 pl _ | .pUp2Bilinear12 pl _ => planesOk .scale12 pl

end Sys2Proof
end

