-- ==== Sys2Proof/Safety.lean ====
section
/-! DEFINITION. What counts as a safe run of PRS: the host keeps its duty of R73, a command touches no memory outside its
destination footprint (R267), and the visible registers agree with one another as R34, R38, R151 and R311 say. -/

namespace Sys2Proof.Machine

/-- The host has not written into a footprint of the running command (R73). -/
def undisturbed (s : State) : Bool :=
  match s.phase with
  | .busy _ true => false
  | .busy _ false | .idle => true

/-- The four STEP registers are 0. -/
def stepsZero (s : State) : Bool :=
  s.stepX = 0#32 && s.stepY = 0#32 && s.stepDX = 0#32 && s.stepDY = 0#32

/-- The pairs (path, effective mode) that dispatch can reach (R151). -/
def reachablePair (p : PathCode) (m : FilterMode) : Bool :=
  match p with
  | .copy | .simple => m = .none
  | .vertical => m = .none || m = .bilinear
  | .down34 | .down2 => m = .none || m = .linear || m = .bilinear
  | .down38 => true
  | .down4 => m = .none || m = .box
  | .box => m = .box
  | .up2Linear | .up2Linear12 => m = .linear
  | .up2Bilinear | .up2Bilinear12 => m = .bilinear
  | .bilinearUp | .bilinearDown => m = .linear || m = .bilinear

/-- The paths that compute a ScaleStep (R38). -/
def computesStep (p : PathCode) : Bool :=
  match p with
  | .vertical | .box | .bilinearUp | .bilinearDown | .simple => true
  | .copy | .down34 | .down2 | .down38 | .down4 => false
  | .up2Linear | .up2Bilinear | .up2Linear12 | .up2Bilinear12 => false

/-- The paths on which an error can be raised: before dispatch PATH is 0, after it PATH is set (R34, R311). -/
def errFitsPath (e : Err) (p : Option PathCode) : Bool :=
  match e with
  | .cmd | .dim | .scale | .align => p = none
  | .mirrorBox => p = some .box
  | .range12 => p = some .up2Linear12 || p = some .up2Bilinear12
  | .alloc => p = some .box || p = some .bilinearUp || p = some .bilinearDown
  | .oob | .overlap | .bus => p ≠ none

/-- The invariant of the machine: memory is canonical, and STATUS, STEP_* and the phase fit together. -/
structure Inv (s : State) : Prop where
  memCanonical : Memory.wf s.mem = true
  busyNotDone : isBusy s = true → s.done = false
  notDoneClear : s.done = false → s.err = none ∧ s.path = none
  noPathClear : s.path = none → s.effFilter = .none ∧ stepsZero s = true
  pathPair : ∀ p, s.path = some p → reachablePair p s.effFilter = true
  pathSteps : ∀ p, s.path = some p → computesStep p = false → stepsZero s = true
  errPath : ∀ e, s.err = some e → errFitsPath e s.path = true

/-- The destination footprints that a command may change in this state: that of the operands it reads, and, when the host
has disturbed the running command, that of the latched command (R267, R73). -/
def mayChange (op : ScaleOp) (s : State) (a : Nat) : Bool :=
  inSpans (dstSpans op (commandPlanes s)) a ||
  match s.phase with
  | .busy c true =>
    match latchedScaleOp c with
    | some o => inSpans (dstSpans o c.planes) a
    | none => false
  | .busy _ false | .idle => false

/-- The host's own registers and the parameters of the instance are the same in both states (R37, R332). -/
structure SameHostSide (s t : State) : Prop where
  cfg : t.cfg = s.cfg
  planes : registerPlanes t = registerPlanes s
  readData : t.readData = s.readData
  memData : t.memData = s.memData
  result : t.result = s.result
  pending : t.pending = s.pending

/-! ### The terms the statements use -/

/-- The scaling command of an OP (R81). -/
def commandInstr (op : ScaleOp) (f : FilterMode) : Instr :=
  match op with
  | .scale8 => .scale8 f
  | .scale16 => .scale16 f
  | .scale12 => .scale12 f
  | .scale16to8 => .scale16to8 f

/-- The P operation of a path code (R88); the two 12-bit paths belong to SCALE12 alone. -/
def pathInstr (p : PathCode) (op : ScaleOp) (pl : Planes) (m : FilterMode) : Instr :=
  match p with
  | .copy => .pCopy op pl m
  | .vertical => .pVertical op pl m
  | .down34 => .pDown34 op pl m
  | .down2 => .pDown2 op pl m
  | .down38 => .pDown38 op pl m
  | .down4 => .pDown4 op pl m
  | .box => .pBox op pl m
  | .up2Linear => .pUp2Linear op pl m
  | .up2Bilinear => .pUp2Bilinear op pl m
  | .bilinearUp => .pBilinearUp op pl m
  | .bilinearDown => .pBilinearDown op pl m
  | .simple => .pSimple op pl m
  | .up2Linear12 => .pUp2Linear12 pl m
  | .up2Bilinear12 => .pUp2Bilinear12 pl m

/-- A command that ended without computing a ScaleStep or touching memory (R34, R38): its error, path and mode. -/
def ended (e : Option Err) (p : Option PathCode) (m : FilterMode) (s : State) : State :=
  { s with
    done := true, err := e, path := p, effFilter := m,
    stepX := 0#32, stepY := 0#32, stepDX := 0#32, stepDY := 0#32,
    phase := .idle, scratchGen := s.scratchGen + 1 }

/-- The instructions that have a word: the host commands and the reserved OP codes (R81); the internal operations are not
host-encodable (R88). -/
def isCommand : Instr → Bool
  | .nop _ | .scale8 _ | .scale16 _ | .scale12 _ | .scale16to8 _ => true
  | .illegalOp5 _ | .illegalOp67 _ _ | .illegalOp8F _ _ => true
  | .fxDiv .. | .fxDiv1 .. | .fxCenter .. | .fxSlope .. => false
  | .frReduce .. | .frSelect .. | .frSelect12 .. => false
  | .kNarrow .. | .kDown2Point .. | .kDown2Linear .. | .kDown2Box .. | .kDown4Point .. | .kDown4Box .. => false
  | .kDown34Point .. | .kDown34H .. | .kDown34Box0 .. | .kDown34Box1 .. => false
  | .kDown38Point .. | .kDown38Box3 .. | .kDown38Box2 .. => false
  | .kUp2LinearCore .. | .kUp2Linear .. | .kUp2BilinearCore .. | .kUp2Bilinear .. => false
  | .kColsPoint .. | .kColsBlend8 .. | .kColsBlend16 .. | .kInterp .. => false
  | .kAddrow .. | .kAddcols .. | .kBoxdiv .. => false
  | .pCopy .. | .pVertical .. | .pDown34 .. | .pDown2 .. | .pDown38 .. | .pDown4 .. | .pBox .. => false
  | .pUp2Linear .. | .pUp2Bilinear .. | .pBilinearUp .. | .pBilinearDown .. | .pSimple .. => false
  | .pUp2Linear12 .. | .pUp2Bilinear12 .. => false

/-- The selector operation of a scaling command on its latched sizes (R265): FR.SELECT12 for SCALE12, FR.SELECT for the
others. -/
def selectInstr (op : ScaleOp) (pl : Planes) (f : FilterMode) : Instr :=
  match op with
  | .scale12 => .frSelect12 pl.srcW.toInt pl.srcH.toInt pl.dstW.toInt pl.dstH.toInt f
  | .scale8 | .scale16 | .scale16to8 => .frSelect pl.srcW.toInt pl.srcH.toInt pl.dstW.toInt pl.dstH.toInt f

/-- It is the engine's turn in `s`, and `u` is `s` with that turn taken off the list (R342, log 7). -/
def engineTurn (s u : State) : Prop :=
  (s.pending = [] ∧ u = s) ∨ ∃ rest, s.pending = .engine :: rest ∧ u = { s with pending := rest }

/-- The source row that UP2_LINEAR doubles into output row j (R235). -/
def doubledRowIndex (h hd j : Nat) : Nat :=
  if hd = 1 then (h - 1) / 2 else (32767 + j * ((h - 1) * 65536 / (hd - 1))) / 65536

/-- The source rows that a range-checked path reads, each of them whole (R241 to R243); the other paths check no row. -/
def checkedRow (p : PathCode) (pl : Planes) (r : Nat) : Prop :=
  match p with
  | .up2Linear12 => ∃ j, j < dstHeight pl ∧ r = doubledRowIndex (srcHeight pl) (dstHeight pl) j
  | .up2Bilinear12 => r < srcHeight pl
  | .copy | .vertical | .down34 | .down2 | .down38 | .down4 | .box => False
  | .up2Linear | .up2Bilinear | .bilinearUp | .bilinearDown | .simple => False

/-- What a path leaves when it has run to its last write: PATH, the ScaleStep, and the memory it stored to. -/
def afterPath (p : PathCode) (st : ScaleStep) (mem : Memory) (s : State) : State :=
  { s with
    path := some p,
    stepX := BitVec.ofInt 32 st.x, stepY := BitVec.ofInt 32 st.y,
    stepDX := BitVec.ofInt 32 st.dx, stepDY := BitVec.ofInt 32 st.dy,
    mem := mem, scratchGen := s.scratchGen + 1 }

/-- The ScaleStep of a path that computes none (R38). -/
def noStep : ScaleStep := { x := 0, y := 0, dx := 0, dy := 0 }

/-- What a command leaves whose path raised while it ran (R267, R300): the error, the dispatch result, the path's ScaleStep,
and a memory whose destination footprint one event of free values has changed (log 4). -/
def raisedInPath (e : Err) (sel : Selection) (st : ScaleStep) (mem : Memory) (s : State) : State :=
  { s with
    done := true, err := some e, path := some sel.path, effFilter := sel.mode,
    stepX := BitVec.ofInt 32 st.x, stepY := BitVec.ofInt 32 st.y,
    stepDX := BitVec.ofInt 32 st.dx, stepDY := BitVec.ofInt 32 st.dy,
    phase := .idle, mem := mem, free := s.free + 1, scratchGen := s.scratchGen + 1 }

/-- The path's preconditions hold and every check after dispatch passes (R314, R311 steps 5 to 10). -/
def pathRuns (p : PathCode) (op : ScaleOp) (pl : Planes) (m : FilterMode) (cfg : Config) : Bool :=
  pathReady p op pl m cfg && postCheck cfg op pl p = .runs

/-- Src(r, c) (R64): the value of a source sample in memory. -/
def srcSample (op : ScaleOp) (pl : Planes) (m : Memory) (r c : Int) : Nat :=
  loadSample m (srcAddr op pl r.toNat c.toNat).toNat (srcBytes op)

/-- The value of a destination sample in memory (R66). -/
def dstSample (op : ScaleOp) (pl : Planes) (m : Memory) (r c : Nat) : Nat :=
  loadSample m (dstAddr op pl r c).toNat (dstBytes op)

/-- Memory after OUT(r, c) <- f r c for every sample of the destination plane (R212). -/
def storePlane (op : ScaleOp) (pl : Planes) (f : Nat → Nat → Nat) (m : Memory) : Memory :=
  storeRows op pl ((List.range (dstHeight pl)).map fun r => (r, (List.range (dstWidth pl)).map (f r))) m

/-- A row given by value, as a function of the index. -/
def sampleOf (s : Row) (i : Nat) : Nat := s.getD i 0

/-- Output i of the 4-to-3 filter H (R168), over a row as a function of the column. -/
def threeQuarters (p : Nat → Nat) (i : Nat) : Nat :=
  let g := i / 3
  match i % 3 with
  | 0 => (3 * p (4 * g) + p (4 * g + 1) + 2) / 4
  | 1 => (p (4 * g + 1) + p (4 * g + 2) + 1) / 2
  | _ => (p (4 * g + 2) + 3 * p (4 * g + 3) + 2) / 4

/-- The three columns, or the last two, that output i of a 3/8 box averages (R172, R173). -/
def threeEighthsColumns (i : Nat) : List Nat :=
  let g := 8 * (i / 3)
  match i % 3 with
  | 0 => [g, g + 1, g + 2]
  | 1 => [g + 3, g + 4, g + 5]
  | _ => [g + 6, g + 7]

/-- The sum of a row over columns. -/
def sumAt (p : Nat → Nat) (cols : List Nat) : Nat := (cols.map p).sum

/-- Output c of n of the doubled row (R174, R175). -/
def doubledRow (p : Nat → Nat) (n c : Nat) : Nat :=
  if c = n - 1 then p ((n - 1) / 2)
  else if c = 0 then p 0
  else
    let k := (c - 1) / 2
    if c % 2 = 1 then (3 * p k + p (k + 1) + 2) / 4 else (p k + 3 * p (k + 1) + 2) / 4

/-- Output c of n of the doubled row nearer to p than to q (R177, R178). -/
def doubledPair (p q : Nat → Nat) (n c : Nat) : Nat :=
  if c = n - 1 then (3 * p ((n - 1) / 2) + q ((n - 1) / 2) + 2) / 4
  else if c = 0 then (3 * p 0 + q 0 + 2) / 4
  else
    let k := (c - 1) / 2
    if c % 2 = 1 then (9 * p k + 3 * p (k + 1) + 3 * q k + q (k + 1) + 8) / 16
    else (3 * p k + 9 * p (k + 1) + q k + 3 * q (k + 1) + 8) / 16

/-- The two-tap blend of a row at a 16.16 coordinate with a 7-bit or a 16-bit weight (R182, R183). -/
def blended (bl : Blend8) (p : Int → Nat) (x : Int) : Nat :=
  let a : Int := p (x / 65536)
  let b : Int := p (x / 65536 + 1)
  match bl with
  | .bits7 => (a + (x % 65536 / 512 * (b - a) + 64) / 128).toNat
  | .bits16 => (a + (x % 65536 * (b - a) + 32768) / 65536).toNat

/-- The blend of a command's samples: BLEND8 for 8-bit samples, 16 bits otherwise (R182, R183). -/
def blendOf (cfg : Config) (op : ScaleOp) : Blend8 :=
  match op with
  | .scale8 => cfg.blend8
  | .scale16 | .scale12 | .scale16to8 => .bits16

/-- The vertical blend with the fraction f8 (R184). -/
def interpolated (a b f8 : Nat) : Nat := (a * (256 - f8) + b * f8 + 128) / 256

/-- The sample width of what a kernel answers, none for the other instructions; K.ADDROW answers accumulators (R16, R189). -/
def kernelWidth : Instr → Option SampleWidth
  | .kNarrow _ _ => some .w8
  | .kDown2Point sw _ _ | .kDown2Linear sw _ _ | .kDown2Box sw _ _ _ => some sw
  | .kDown4Point sw _ _ | .kDown4Box sw _ _ _ _ _ => some sw
  | .kDown34Point sw _ _ | .kDown34H sw _ _ | .kDown34Box0 sw _ _ _ | .kDown34Box1 sw _ _ _ => some sw
  | .kDown38Point sw _ _ | .kDown38Box3 sw _ _ _ _ | .kDown38Box2 sw _ _ _ => some sw
  | .kUp2LinearCore sw _ _ _ _ | .kUp2Linear sw _ _ => some sw
  | .kUp2BilinearCore sw _ _ _ _ _ _ | .kUp2Bilinear sw _ _ _ => some sw
  | .kColsPoint sw _ _ _ _ | .kInterp sw _ _ _ _ => some sw
  | .kColsBlend8 _ _ _ _ => some .w8
  | .kColsBlend16 _ _ _ _ => some .w16
  | .kAddcols sw _ _ _ _ _ | .kBoxdiv sw _ _ => some sw
  | .kAddrow .. => none
  | .nop _ | .scale8 _ | .scale16 _ | .scale12 _ | .scale16to8 _ => none
  | .illegalOp5 _ | .illegalOp67 _ _ | .illegalOp8F _ _ => none
  | .fxDiv .. | .fxDiv1 .. | .fxCenter .. | .fxSlope .. => none
  | .frReduce .. | .frSelect .. | .frSelect12 .. => none
  | .pCopy .. | .pVertical .. | .pDown34 .. | .pDown2 .. | .pDown38 .. | .pDown4 .. | .pBox .. => none
  | .pUp2Linear .. | .pUp2Bilinear .. | .pBilinearUp .. | .pBilinearDown .. | .pSimple .. => none
  | .pUp2Linear12 .. | .pUp2Bilinear12 .. => none

/-- A kernel's answer holds samples of the width only: integers of [0, MAXV(SW)] (R16). -/
def resultInRange (sw : SampleWidth) : OpResult → Bool
  | .row d => rowOk sw d
  | .rowPair d e => rowOk sw d && rowOk sw e
  | .number v => 0 ≤ v && v ≤ maxSample sw
  | .empty | .step _ | .mode _ | .selection _ => false

end Sys2Proof.Machine
end

