-- ==== Sys2Proof/Certificates/Slice0/Obligations.lean ====
section
/-! DEFINITION. The statements for the provers. Each docstring names the rules of the spec that the statement formalises. -/

open Sys2Proof Sys2Proof.Machine

/-! ### Encoding -/

/-- R80, R81, R88: the instructions without a word are the internal operations, FX, FR, K and P; every other well-formed
instruction is what its word decodes to, and an internal operation is decoded from no word. -/
def Obligations.DecodeEncodeAgree : Prop :=
  (∀ i : Instr, encode i = none ↔ isCommand i = false) ∧
  (∀ i : Instr, i.wf = true →
    (∃ w, encode i = some w ∧ decode w = .ok i) ∨ (encode i = none ∧ ∀ w, decode w ≠ .ok i))

/-- R80, R84: decoding is total; START = 0 and RSV ≠ 0 are told apart by name, and every other word is the word of the
instruction it decodes to. -/
def Obligations.EncodeDecodeAgree : Prop :=
  ∀ w : Word,
    (decode w = .error .startClear ↔ w.getLsbD 31 = false) ∧
    (decode w = .error .reservedBits ↔ w.getLsbD 31 = true ∧ w.extractLsb' 6 25 ≠ 0#25) ∧
    (w.getLsbD 31 = true → w.extractLsb' 6 25 = 0#25 → ∃ i, decode w = .ok i ∧ encode i = some w)

/-- R82: the four FILTER values, in the order of the reducer's quality order, legal for every OP, and the codes of
STATUS.EFF_FILTER; with the OP values of R81 and the example words of R89. -/
def Obligations.SpecWordsDecode : Prop :=
  [FilterMode.none, .linear, .bilinear, .box].map (fun f => (filterBits f).toNat) = [0, 1, 2, 3] ∧
  (∀ f : FilterMode,
    let word : BitVec 4 → Word := fun o => 1#1 ++ 0#25 ++ filterBits f ++ o
    decode (word 0x0#4) = .ok (.nop f) ∧ decode (word 0x1#4) = .ok (.scale8 f) ∧
    decode (word 0x2#4) = .ok (.scale16 f) ∧ decode (word 0x3#4) = .ok (.scale12 f) ∧
    decode (word 0x4#4) = .ok (.scale16to8 f) ∧ decode (word 0x5#4) = .ok (.illegalOp5 f) ∧
    (∀ o : BitVec 1, decode (word (3#3 ++ o)) = .ok (.illegalOp67 f o)) ∧
    (∀ o : BitVec 3, decode (word (1#1 ++ o)) = .ok (.illegalOp8F f o))) ∧
  (∀ s : State, (statusWord s).extractLsb' 13 2 = filterBits s.effFilter) ∧
  decode 0x80000031#32 = .ok (.scale8 .box) ∧ decode 0x80000022#32 = .ok (.scale16 .bilinear) ∧
  decode 0x80000013#32 = .ok (.scale12 .linear) ∧ decode 0x80000004#32 = .ok (.scale16to8 .none) ∧
  decode 0x80000000#32 = .ok (.nop .none) ∧ decode 0x80000015#32 = .ok (.illegalOp5 .linear) ∧
  decode 0x80000007#32 = .ok (.illegalOp67 .none 1#1) ∧ decode 0x8000002E#32 = .ok (.illegalOp8F .bilinear 6#3) ∧
  decode 0x80000041#32 = .error .reservedBits ∧ decode 0x00000001#32 = .error .startClear

/-! ### The two kinds of transition -/

/-- R340, R342, R333: the engine runs the instruction its latched word decodes to; a host access runs when it is the
host's turn; and an Idle machine with nothing to do stays as it is. The list of pending events, which says whose turn it
is, is the model's own (log 7). -/
def Obligations.StepRunsTheDecodedInstruction : Prop :=
  ∀ s : State,
    (∀ (c : Latched) (d : Bool) (i : Instr), s.phase = .busy c d → decode (latchedWord c) = .ok i →
      (s.pending = [] → step s = exec i s) ∧
      (∀ rest, s.pending = .engine :: rest → step s = exec i { s with pending := rest })) ∧
    (∀ a rest, s.pending = .host a :: rest → step s = hostStep a { s with pending := rest }) ∧
    (s.phase = .idle →
      (s.pending = [] → step s = .next s) ∧
      (∀ rest, s.pending = .engine :: rest → step s = .next { s with pending := rest }))

/-- R32, R34, R38, R42, R43: a write of CMD with START = 1 while Idle latches the written word and the parameter
registers, clears DONE, ERR, PATH, EFF_FILTER and STEP_*, and enters Busy; with START = 0 it has no effect; a read
returns 0. The field readData, where the value stands, is the model's own (log 7). That RB has 64 bits is the model's
choice (log 24). For an RB that is no multiple of 4, that the access takes effect, its alignment judged by the offset
from RB, is the model's choice too (log 10). -/
def Obligations.CmdWriteStartsACommand : Prop :=
  ∀ (s : State) (w : Word),
    (s.phase = .idle → w.getLsbD 31 = true →
      ∃ c, latchedWord c = w ∧ c.planes = registerPlanes s ∧
        hostStep (.regWrite s.cfg.regBase w) s = .next { s with
          done := false, err := none, path := none, effFilter := .none,
          stepX := 0#32, stepY := 0#32, stepDX := 0#32, stepDY := 0#32, phase := .busy c false }) ∧
    (w.getLsbD 31 = false → hostStep (.regWrite s.cfg.regBase w) s = .next s) ∧
    hostStep (.regRead s.cfg.regBase) s = .next { s with readData := 0#32 }

/-- R31, R344: writes while BUSY = 1 are ignored, START among them; reserved offsets and read-only registers ignore
writes at all times; reserved offsets read 0; every other read returns the register's current value, the four STEP
registers' too (R38). The field readData, where the value stands, is the model's own (log 7). That RB and a register
address have 64 bits and that the block is reached modulo 2^64 is the model's choice (log 24). For an RB that is no
multiple of 4, that the access takes effect, its alignment judged by the offset from RB, is the model's choice too (log
10). -/
def Obligations.RegisterAccessRules : Prop :=
  ∀ (s : State) (off : Nat) (v : Word), off < 0x100 → off % 4 = 0 →
    (isBusy s = true → hostStep (.regWrite (s.cfg.regBase + BitVec.ofNat 64 off) v) s = .next s) ∧
    (off = 0x04 ∨ off = 0x1C ∨ 0x38 ≤ off →
      hostStep (.regWrite (s.cfg.regBase + BitVec.ofNat 64 off) v) s = .next s) ∧
    (off = 0x1C ∨ 0x48 ≤ off →
      hostStep (.regRead (s.cfg.regBase + BitVec.ofNat 64 off)) s = .next { s with readData := 0#32 }) ∧
    (∀ r, regOffset r = off →
      hostStep (.regRead (s.cfg.regBase + BitVec.ofNat 64 off)) s = .next { s with readData := readReg r s }) ∧
    (∀ w, (off, w) ∈ [(0x00, 0#32), (0x04, statusWord s), (0x08, s.srcBaseLo), (0x0C, s.srcBaseHi),
        (0x10, s.srcStride), (0x14, s.srcW), (0x18, s.srcH), (0x20, s.dstBaseLo), (0x24, s.dstBaseHi),
        (0x28, s.dstStride), (0x2C, s.dstW), (0x30, s.dstH), (0x34, s.scale.setWidth 32),
        (0x38, s.stepX), (0x3C, s.stepY), (0x40, s.stepDX), (0x44, s.stepDY)] →
      hostStep (.regRead (s.cfg.regBase + BitVec.ofNat 64 off)) s = .next { s with readData := w })

/-- R22 to R30, R43, R83: while Idle, a parameter register holds what was written to it (SCALE its low half), and every
other register and every other field of the state keeps its value; what START would latch is each operand's own
register, a base the concatenation of its two. That RB and a register address have 64 bits and that the block is reached
modulo 2^64 is the model's choice (log 24). For an RB that is no multiple of 4, that the access takes effect, its
alignment judged by the offset from RB, is the model's choice too (log 10). -/
def Obligations.ParameterWriteReadsBack : Prop :=
  ∀ (s : State) (r : Reg) (v : Word), s.phase = .idle → regOffset r ≠ 0x00 → regOffset r ≠ 0x04 → regOffset r < 0x38 →
    ∃ t, hostStep (.regWrite (s.cfg.regBase + BitVec.ofNat 64 (regOffset r)) v) s = .next t ∧
      readReg r t = (if r = .scale then v &&& 0xFFFF#32 else v) ∧
      (∀ r', r' ≠ r → readReg r' t = readReg r' s) ∧
      t = { s with
        srcBaseLo := t.srcBaseLo, srcBaseHi := t.srcBaseHi, srcStride := t.srcStride, srcW := t.srcW, srcH := t.srcH,
        dstBaseLo := t.dstBaseLo, dstBaseHi := t.dstBaseHi, dstStride := t.dstStride, dstW := t.dstW, dstH := t.dstH,
        scale := t.scale } ∧
      registerPlanes t = {
        srcBase := (readReg .srcBaseHi t).setWidth 64 <<< 32 ||| (readReg .srcBaseLo t).setWidth 64
        srcStride := readReg .srcStride t
        srcW := readReg .srcW t
        srcH := readReg .srcH t
        dstBase := (readReg .dstBaseHi t).setWidth 64 <<< 32 ||| (readReg .dstBaseLo t).setWidth 64
        dstStride := readReg .dstStride t
        dstW := readReg .dstW t
        dstH := readReg .dstH t
        scale := (readReg .scale t).setWidth 16 }

/-- R33 with the code tables R82, R85, R86: the fields of the STATUS word, BUSY being 1 exactly in phase Busy (R42).
That RB and a register address have 64 bits and that the block is reached modulo 2^64 is the model's choice (log 24).
The field readData, where a read's value stands, is the model's own (log 7). For an RB that is no multiple of 4, that
the access takes effect, its alignment judged by the offset from RB, is the model's choice too (log 10). -/
def Obligations.StatusWordFields : Prop :=
  (∀ s : State,
    (s.phase = .idle → isBusy s = false) ∧ (∀ c d, s.phase = .busy c d → isBusy s = true) ∧
    (statusWord s).getLsbD 0 = isBusy s ∧ (statusWord s).getLsbD 1 = s.done ∧
    (statusWord s).extractLsb' 2 2 = 0#2 ∧ (statusWord s).extractLsb' 4 4 = errCode s.err ∧
    (statusWord s).extractLsb' 8 5 = pathCode s.path ∧ (statusWord s).extractLsb' 13 2 = filterBits s.effFilter ∧
    (statusWord s).extractLsb' 15 17 = 0#17 ∧
    hostStep (.regRead (s.cfg.regBase + 4#64)) s = .next { s with readData := statusWord s }) ∧
  [none, some Err.cmd, some .dim, some .scale, some .alloc, some .oob, some .overlap, some .range12, some .mirrorBox,
    some .align, some .bus].map (fun e => (errCode e).toNat) = List.range 11 ∧
  [none, some PathCode.copy, some .vertical, some .down34, some .down2, some .down38, some .down4, some .box,
    some .up2Linear, some .up2Bilinear, some .bilinearUp, some .bilinearDown, some .simple, some .up2Linear12,
    some .up2Bilinear12].map (fun p => (pathCode p).toNat) = List.range 15 ∧
  [FilterMode.none, .linear, .bilinear, .box].map (fun m => (filterBits m).toNat) = List.range 4

/-- R330, R332: the reset input zeroes every register, enters Idle, makes the scratch contents unspecified anew, keeps
the parameters of the instance, and leaves memory alone but for the destination footprint of an abandoned command, each
existing byte of which becomes unspecified: the free values drawn at that moment, whatever they are. The abandoned
command has a footprint when its latched word decodes to a scaling command. That the scratch contents change at reset is
said of their generation, the model's form of an unspecified store (log 6). -/
def Obligations.ResetInputEffect : Prop :=
  ∀ s : State, Memory.wf s.mem = true →
    ∃ t, hostStep .reset s = .next t ∧ (∀ r, readReg r t = 0#32) ∧ t.phase = .idle ∧ t.cfg = s.cfg ∧
      t.scratchGen ≠ s.scratchGen ∧
      (s.phase = .idle → t.mem = s.mem) ∧
      (∀ c d, s.phase = .busy c d →
        (∀ op, latchedScaleOp c = some op ↔ ∃ f, decode (latchedWord c) = .ok (commandInstr op f)) ∧
        (latchedScaleOp c = none → t.mem = s.mem) ∧
        (∀ op, latchedScaleOp c = some op → ∀ a : Nat,
          (inSpans (dstSpans op c.planes) a = false → Memory.read t.mem a = Memory.read s.mem a) ∧
          (inSpans (dstSpans op c.planes) a = true → memValid s.cfg a = true →
            Memory.read t.mem a = Config.freeByte s.free a)))

/-- R331: after reset every offset reads 0, the engine is Idle, and a START of a scaling command with no parameter
written ends with ERR_DIM. The RB of State.reset is the model's choice (log 2), and so is the field readData (log 7). -/
def Obligations.ResetStateReadsZero : Prop :=
  (∀ off, off < 0x100 → readOffset off State.reset = 0#32) ∧ State.reset.phase = .idle ∧
  (∀ off, off < 0x100 → off % 4 = 0 →
    hostStep (.regRead (State.reset.cfg.regBase + BitVec.ofNat 64 off)) State.reset =
      .next { State.reset with readData := 0#32 }) ∧
  (∀ op f w, encode (commandInstr op f) = some w →
    ∃ t u, hostStep (.regWrite State.reset.cfg.regBase w) State.reset = .next t ∧ step t = .next u ∧
      u.err = some .dim ∧ u.done = true ∧ u.path = none ∧ u.phase = .idle)

/-- R60, R61, R73: the host's own port to memory: a byte reads back what was written to it. MEM_VALID is false in the
ranges that the instance lists, the model's form of the parameter (log 1). While a scaling command runs, that is while
the latched word decodes to one, a read of its destination footprint returns an unspecified value, and a write into
either footprint leaves, after the command, every existing byte of the destination footprint unspecified and no other
byte changed. That an access to an invalid address stops the machine with a fault is the model's choice (log 11). So is
that the port is plain again from the engine step on, before the host reads STATUS with BUSY = 0 (log 25). The list of
pending events, which gives the engine its turn, is the model's own (log 7). -/
def Obligations.HostMemoryAccesses : Prop :=
  (∀ (c : Latched) (op : ScaleOp),
    latchedScaleOp c = some op ↔ ∃ f, decode (latchedWord c) = .ok (commandInstr op f)) ∧
  (∀ (cfg : Config) (a : Nat),
    memValid cfg a = true ↔ a < 2 ^ 64 ∧ ∀ h, h ∈ cfg.holes → ¬ (h.1 ≤ a ∧ a < h.2)) ∧
  (∀ (s : State) (a : BitVec 64) (v : Byte),
    let scaling : ScaleOp → Planes → Bool → Prop := fun op pl d =>
      ∃ c, s.phase = .busy c d ∧ latchedScaleOp c = some op ∧ c.planes = pl
    let plainRead : Prop := hostStep (.memRead a) s = .next { s with memData := Memory.read s.mem a.toNat }
    (memValid s.cfg a.toNat = false →
      hostStep (.memRead a) s = .fault .hostNoMemory ∧ hostStep (.memWrite a v) s = .fault .hostNoMemory) ∧
    (memValid s.cfg a.toNat = true →
      ((∀ op pl d, ¬ scaling op pl d) → plainRead) ∧
      (∀ op pl d, scaling op pl d →
        (inSpans (dstSpans op pl) a.toNat = false → plainRead) ∧
        (inSpans (dstSpans op pl) a.toNat = true →
          hostStep (.memRead a) s = .next { s with memData := Config.freeRead s.free, free := s.free + 1 }))) ∧
    (memValid s.cfg a.toNat = true → Memory.wf s.mem = true →
      ∃ mem, Memory.read mem a.toNat = v ∧ (∀ b, b ≠ a.toNat → Memory.read mem b = Memory.read s.mem b) ∧
        ((∀ op pl d, ¬ scaling op pl d) → hostStep (.memWrite a v) s = .next { s with mem := mem }) ∧
        (∀ op c d, s.phase = .busy c d → latchedScaleOp c = some op →
          (inSpans (srcSpans op c.planes) a.toNat = false → inSpans (dstSpans op c.planes) a.toNat = false →
            hostStep (.memWrite a v) s = .next { s with mem := mem }) ∧
          (inSpans (srcSpans op c.planes) a.toNat = true ∨ inSpans (dstSpans op c.planes) a.toNat = true →
            hostStep (.memWrite a v) s = .next { s with mem := mem, phase := .busy c true })))) ∧
  (∀ (s u : State) (c : Latched) (op : ScaleOp), s.phase = .busy c true → engineTurn s u →
    latchedScaleOp c = some op → Memory.wf s.mem = true →
    ∃ t k, step s = .next t ∧ ∀ a : Nat,
      (inSpans (dstSpans op c.planes) a = false → Memory.read t.mem a = Memory.read s.mem a) ∧
      (inSpans (dstSpans op c.planes) a = true → memValid s.cfg a = true → Memory.read t.mem a = Config.freeByte k a))

/-! ### Invariants -/

/-- R34, R38, R42, R151, R311: every step keeps the invariant of Safety.lean. Its canonical memory is the model's form
(log 3). -/
def Obligations.InvKeptByStep : Prop :=
  ∀ s t : State, Inv s → step s = .next t → Inv t

/-- The invariant holds at reset. -/
def Obligations.InvAtReset : Prop := Inv State.reset

/-- R37, R342, R343: the engine step of a running command always happens, ends Busy with DONE = 1, and leaves every
register the host wrote as it was. The list of pending events is the model's own (log 7). -/
def Obligations.EngineStepCompletes : Prop :=
  ∀ (s u : State) (c : Latched) (d : Bool), s.phase = .busy c d → engineTurn s u →
    ∃ t, step s = .next t ∧ t.phase = .idle ∧ t.done = true ∧ SameHostSide u t

/-! ### What a command may change, and how it fails -/

/-- R267, R37, R61: a scaling command writes no register but STATUS and STEP_*, and no byte of memory outside its
destination footprint. The command executed while Idle reads the registers as START would latch them (log 9). -/
def Obligations.CommandFrame : Prop :=
  ∀ (op : ScaleOp) (f : FilterMode) (s : State),
    ∃ t, exec (commandInstr op f) s = .next t ∧ t.phase = .idle ∧ t.done = true ∧ SameHostSide s t ∧
      ∀ a : Nat, mayChange op s a = false → Memory.read t.mem a = Memory.read s.mem a

/-- R260: NOP completes with DONE alone, for every filter, and touches no memory. That exec of it completes in an Idle
state too is the model's choice (log 9). -/
def Obligations.NopOnlyCompletes : Prop :=
  ∀ (f : FilterMode) (s : State), undisturbed s = true → exec (.nop f) s = .next (ended none none .none s)

/-- R84, R268, R301: a reserved OP or a nonzero RSV ends with ERR_CMD, whatever the parameters, with PATH = 0 and no
memory access; and nothing else ends with ERR_CMD. That exec of a reserved command ends so in an Idle state too is the
model's choice (log 9), and the list of pending events is the model's own (log 7). -/
def Obligations.ReservedCommandsRaiseErrCmd : Prop :=
  (∀ (s : State) (f : FilterMode) (o1 : BitVec 1) (o3 : BitVec 3), undisturbed s = true →
    exec (.illegalOp5 f) s = .next (ended (some .cmd) none .none s) ∧
    exec (.illegalOp67 f o1) s = .next (ended (some .cmd) none .none s) ∧
    exec (.illegalOp8F f o3) s = .next (ended (some .cmd) none .none s)) ∧
  (∀ (s u : State) (c : Latched), s.phase = .busy c false → engineTurn s u →
    (c.rsv ≠ 0#25 ∨ 5 ≤ c.op.toNat → step s = .next (ended (some .cmd) none .none u)) ∧
    (c.rsv = 0#25 → c.op.toNat < 5 → ∃ t, step s = .next t ∧ t.err ≠ some .cmd))

/-- R302, R303, R310, in the order of R311: a scaling command ends with ERR_DIM exactly when a dimension is outside its
range; else with ERR_SCALE exactly when it is SCALE16TO8 and SCALE is outside [256, 32768]; else with ERR_ALIGN exactly
when a base of two-byte samples is odd. A running command uses the latched operands only (R43). In an Idle state the
operands are the registers as START would latch them, the model's choice (log 9). -/
def Obligations.PreCheckErrorsExactly : Prop :=
  ∀ (op : ScaleOp) (f : FilterMode) (s : State),
    let pl := commandPlanes s
    let badDim : Prop :=
      (pl.srcW.toInt = 0 ∨ (s.cfg.maxDim.val : Int) < |pl.srcW.toInt|) ∨
      (pl.srcH.toInt = 0 ∨ (s.cfg.maxDim.val : Int) < |pl.srcH.toInt|) ∨
      (pl.dstW.toInt < 1 ∨ (s.cfg.maxDim.val : Int) < pl.dstW.toInt) ∨
      (pl.dstH.toInt < 1 ∨ (s.cfg.maxDim.val : Int) < pl.dstH.toInt)
    let badScale : Prop := op = .scale16to8 ∧ (pl.scale.toNat < 256 ∨ 32768 < pl.scale.toNat)
    let badAlign : Prop :=
      (op ≠ .scale8 ∧ pl.srcBase.toNat % 2 = 1) ∨ ((op = .scale16 ∨ op = .scale12) ∧ pl.dstBase.toNat % 2 = 1)
    (∀ c d, s.phase = .busy c d → pl = c.planes) ∧ (s.phase = .idle → pl = registerPlanes s) ∧
    (preCheck s.cfg op pl = none ↔ ¬ badDim ∧ ¬ badScale ∧ ¬ badAlign) ∧
    ∃ t, exec (commandInstr op f) s = .next t ∧
      (t.err = some .dim ↔ badDim) ∧
      (t.err = some .scale ↔ ¬ badDim ∧ badScale) ∧
      (t.err = some .align ↔ ¬ badDim ∧ ¬ badScale ∧ badAlign)

/-- R300, R311, R34, R265, R267, R69: what the host finds after a command that a check ended, or that the
identical-plane COPY ended: the error, PATH and EFF_FILTER as far as dispatch ran, STEP_* 0, and memory and every other
register unchanged. The dispatch result is what FR.SELECT, or FR.SELECT12 for SCALE12, answers on the latched sizes. In
an Idle state the operands are the registers as START would latch them, the model's choice (log 9). The selector's
answer stands in the model's own result port (log 5), and that it answers on sizes outside the domain of R130 too (a
size of 0, a negative destination size) is the model's choice (log 23). -/
def Obligations.CheckFailureReport : Prop :=
  ∀ (op : ScaleOp) (f : FilterMode) (s : State), undisturbed s = true →
    let pl := commandPlanes s
    let sel := dispatch op pl f
    exec (selectInstr op pl f) s = .next { s with result := .selection sel } ∧
    (∀ e, preCheck s.cfg op pl = some e → exec (commandInstr op f) s = .next (ended (some e) none .none s)) ∧
    (preCheck s.cfg op pl = none →
      (∀ e, postCheck s.cfg op pl sel.path = .fails e →
        exec (commandInstr op f) s = .next (ended (some e) (some sel.path) sel.mode s)) ∧
      (postCheck s.cfg op pl sel.path = .shortCircuit →
        exec (commandInstr op f) s = .next (ended none (some .copy) sel.mode s)))

/-- R64: logical source addressing, on W = |SRC_W| columns and H = |SRC_H| rows, with the vertical mirror as an index
map and the horizontal mirror not in it; and over it, and over the destination addresses of R66, the footprints: the
footprint checks see exactly the bytes of the samples SrcAddr(r, c) and DstAddr(r, c), as R68 defines them. -/
def Obligations.FootprintsAreTheSamples : Prop :=
  ∀ (op : ScaleOp) (pl : Planes),
    (∀ (m : Memory) (r c : Nat), (r : Int) < |pl.srcH.toInt| → (c : Int) < |pl.srcW.toInt| →
      let b : Int := if op = .scale8 then 1 else 2
      let physrow : Int := if 0 < pl.srcH.toInt then r else |pl.srcH.toInt| - 1 - r
      srcAddr op pl r c = pl.srcBase.toNat + (physrow * pl.srcStride.toInt + c) * b ∧
      ∀ a : Nat, srcAddr op pl r c = a →
        srcRow op pl m r c =
          .ok (if b = 1 then (Memory.read m a).toNat
            else (Memory.read m a).toNat ||| (Memory.read m (a + 1)).toNat <<< 8)) ∧
    (srcWidth pl : Int) = |pl.srcW.toInt| ∧ (srcHeight pl : Int) = |pl.srcH.toInt| ∧
    dstWidth pl = pl.dstW.toInt.toNat ∧ dstHeight pl = pl.dstH.toInt.toNat ∧
    srcBytes op = (if op = .scale8 then 1 else 2) ∧ dstBytes op = (if op = .scale16 ∨ op = .scale12 then 2 else 1) ∧
    (∀ r c : Nat, dstAddr op pl r c =
      pl.dstBase.toNat + (r * pl.dstStride.toInt + c) * (if op = .scale16 ∨ op = .scale12 then 2 else 1)) ∧
    (∀ a : Int,
      (inSpans (srcSpans op pl) a = true ↔
        ∃ r c : Nat, r < srcHeight pl ∧ c < srcWidth pl ∧ srcAddr op pl r c ≤ a ∧ a < srcAddr op pl r c + srcBytes op) ∧
      (inSpans (dstSpans op pl) a = true ↔
        ∃ r c : Nat, r < dstHeight pl ∧ c < dstWidth pl ∧ dstAddr op pl r c ≤ a ∧
          a < dstAddr op pl r c + dstBytes op))

/-- R305 (a), R306, R308, R309, R304, R69, R255 in the order of R311: the checks after dispatch, each said of the
footprints' bytes; the scratch demand never exceeds the default capacity. -/
def Obligations.PostChecksInOrder : Prop :=
  ∀ (cfg : Config) (op : ScaleOp) (pl : Planes) (p : PathCode), preCheck cfg op pl = none →
    let touches : Int → Prop := fun a => inSpans (srcSpans op pl) a = true ∨ inSpans (dstSpans op pl) a = true
    let mirroredBox : Prop := p = .box ∧ pl.srcW.toInt < 0
    let samePlane : Prop :=
      p = .copy ∧ op ≠ .scale16to8 ∧ 0 < pl.srcH.toInt ∧ pl.srcBase = pl.dstBase ∧ pl.srcStride = pl.dstStride
    let outOfSpace : Prop := ∃ a, touches a ∧ (a < 0 ∨ 2 ^ 64 ≤ a)
    let invalid : Prop := ∃ a : Nat, touches a ∧ memValid cfg a = false
    let overlap : Prop :=
      (∃ a, inSpans (srcSpans op pl) a = true ∧ inSpans (dstSpans op pl) a = true) ∨
      (∃ r c r' c' : Nat, ∃ a : Int, r < dstHeight pl ∧ c < dstWidth pl ∧ r' < dstHeight pl ∧ c' < dstWidth pl ∧
        (r, c) ≠ (r', c') ∧ dstAddr op pl r c ≤ a ∧ a < dstAddr op pl r c + dstBytes op ∧
        dstAddr op pl r' c' ≤ a ∧ a < dstAddr op pl r' c' + dstBytes op)
    let b : Nat := if op = .scale8 then 1 else 2
    let demand : Nat :=
      if p = .box then srcWidth pl * 2 * b
      else if p = .bilinearUp then 2 * ((dstWidth pl + 31) / 32 * 32) * b
      else if p = .bilinearDown then srcWidth pl * b else 0
    let tooLarge : Prop := cfg.scratchBytes < demand
    (131072 ≤ cfg.scratchBytes → ¬ tooLarge) ∧
    (mirroredBox → postCheck cfg op pl p = .fails .mirrorBox) ∧
    (samePlane → postCheck cfg op pl p = .shortCircuit) ∧
    (¬ mirroredBox → ¬ samePlane →
      (outOfSpace → postCheck cfg op pl p = .fails .oob) ∧
      (¬ outOfSpace →
        (invalid → postCheck cfg op pl p = .fails .bus) ∧
        (¬ invalid →
          (overlap → postCheck cfg op pl p = .fails .overlap) ∧
          (¬ overlap →
            (tooLarge → postCheck cfg op pl p = .fails .alloc) ∧ (¬ tooLarge → postCheck cfg op pl p = .runs)))))

/-! ### What a command and a path compute -/

/-- R265, R266, R267, R305: a scaling command whose checks pass runs the P operation of the path that its selector,
FR.SELECT or FR.SELECT12 for SCALE12, answers on the latched sizes, from its ScaleStep to its last byte, and ends with
no error, but for the overflow of VERTICAL (R213) and a sample above 4095 that a 12-bit path reads (R243). How a P
operation takes its operands and what it leaves besides memory, PATH and STEP_* is the model's choice (log 5). The
operands of a running command are the latched ones (R43). In an Idle state the operands are the registers as START would
latch them, the model's choice (log 9). The selector's answer stands in the model's own result port (log 5), and that it
answers on sizes outside the domain of R130 too (a size of 0, a negative destination size) is the model's choice (log
23). -/
def Obligations.CommandRunsItsPath : Prop :=
  ∀ (op : ScaleOp) (f : FilterMode) (s : State), undisturbed s = true →
    let pl := commandPlanes s
    let sel := dispatch op pl f
    (∀ c d, s.phase = .busy c d → pl = c.planes) ∧ (s.phase = .idle → pl = registerPlanes s) ∧
    exec (selectInstr op pl f) s = .next { s with result := .selection sel } ∧
    (preCheck s.cfg op pl = none → postCheck s.cfg op pl sel.path = .runs →
      ¬ (sel.path = .vertical ∧ srcHeight pl = 32768 ∧ dstHeight pl = 1) →
      (∀ r c : Nat, checkedRow sel.path pl r → c < srcWidth pl → srcSample op pl s.mem r c ≤ 4095) →
      ∃ st mem,
        exec (pathInstr sel.path op pl sel.mode) s = .next (afterPath sel.path st mem s) ∧
        exec (commandInstr op f) s = .next { afterPath sel.path st mem s with
          done := true, err := none, effFilter := sel.mode, phase := .idle, scratchGen := s.scratchGen + 2 })

/-- R213, R243, R264, R267, R305 (b), R307: a scaling command whose checks pass and whose path raises ends with ERR_OOB,
on the overflow of VERTICAL from 32768 rows to one, or with ERR_RANGE12, on a sample above 4095 that a 12-bit path
reads; PATH and EFF_FILTER hold the dispatch result, STEP_* are as the path set them, every byte of the destination
footprint is unspecified, and no other byte and no other register is changed. The unspecified bytes are free values (log
4). In an Idle state the operands are the registers as START would latch them, the model's choice (log 9). The
selector's answer stands in the model's own result port (log 5), and that it answers on sizes outside the domain of R130
too (a size of 0, a negative destination size) is the model's choice (log 23). -/
def Obligations.CommandReportsRunningErrors : Prop :=
  ∀ (op : ScaleOp) (f : FilterMode) (s : State), undisturbed s = true → Memory.wf s.mem = true →
    let pl := commandPlanes s
    let sel := dispatch op pl f
    let report : Err → ScaleStep → Prop := fun e st =>
      ∃ mem, exec (commandInstr op f) s = .next (raisedInPath e sel st mem s) ∧ ∀ a : Nat,
        (inSpans (dstSpans op pl) a = false → Memory.read mem a = Memory.read s.mem a) ∧
        (inSpans (dstSpans op pl) a = true → Memory.read mem a = Config.freeByte s.free a)
    exec (selectInstr op pl f) s = .next { s with result := .selection sel } ∧
    (preCheck s.cfg op pl = none → postCheck s.cfg op pl sel.path = .runs →
      (sel.path = .vertical → srcHeight pl = 32768 → dstHeight pl = 1 →
        report .oob { x := 0, y := -1073709056, dx := 0, dy := -2147483648 }) ∧
      (∀ r c : Nat, checkedRow sel.path pl r → c < srcWidth pl → 4095 < srcSample op pl s.mem r c →
        report .range12 noStep))

/-- R62, R63, R66, R160, R212, R263: OUT on every sample of a destination that lies in the address space and no two of
whose samples share a byte. Every sample then reads back, narrowed by SCALE for SCALE16TO8 and as it is otherwise, in
little-endian bytes at its address, and every byte outside the footprint is unchanged. R160 states N(v) for v in [0,
65535] and SCALE in [256, 32768]: that OUT narrows by the same formula for every v and SCALE is the model's choice (log
23). -/
def Obligations.StoredPlaneReadsBack : Prop :=
  ∀ (op : ScaleOp) (pl : Planes) (m : Memory) (f : Nat → Nat → Nat), Memory.wf m = true →
    let bd : Nat := if op = .scale16 ∨ op = .scale12 then 2 else 1
    let inPlane : Nat → Nat → Prop := fun r c => r < dstHeight pl ∧ c < dstWidth pl
    (∀ r c, inPlane r c → 0 ≤ dstAddr op pl r c ∧ dstAddr op pl r c + bd ≤ 2 ^ 64) →
    (∀ r c r' c', inPlane r c → inPlane r' c' → (r, c) ≠ (r', c') →
      dstAddr op pl r c + bd ≤ dstAddr op pl r' c' ∨ dstAddr op pl r' c' + bd ≤ dstAddr op pl r c) →
    (∀ r c, inPlane r c →
      let v : Nat := (if op = .scale16to8 then min 255 (f r c * pl.scale.toNat / 65536) else f r c) % 256 ^ bd
      dstSample op pl (storePlane op pl f m) r c = v ∧
      ∀ a : Nat, dstAddr op pl r c = a →
        Memory.read (storePlane op pl f m) a = BitVec.ofNat 8 v ∧
        (bd = 2 → Memory.read (storePlane op pl f m) (a + 1) = BitVec.ofNat 8 (v / 256))) ∧
    (∀ a : Nat, inSpans (dstSpans op pl) a = false → Memory.read (storePlane op pl f m) a = Memory.read m a)

/-- R210, R69: P.COPY stores the source samples, and on identical planes, but for SCALE16TO8, makes no access. How a P
operation takes its operands and what it leaves besides memory, PATH and STEP_* is the model's choice (log 5). So is
that an identical-plane call of its own leaves STEP_* as they are, which is 0 in every command (log 5). -/
def Obligations.CopyStoresTheSource : Prop :=
  ∀ (op : ScaleOp) (pl : Planes) (m : FilterMode) (s : State),
    (pathRuns .copy op pl m s.cfg = true → dstWidth pl = srcWidth pl → dstHeight pl = srcHeight pl →
      exec (.pCopy op pl m) s =
        .next (afterPath .copy noStep (storePlane op pl (fun r c => srcSample op pl s.mem r c) s.mem) s)) ∧
    (preCheck s.cfg op pl = none → op ≠ .scale16to8 → 0 < pl.srcH.toInt → pl.srcBase = pl.dstBase →
      pl.srcStride = pl.dstStride → exec (.pCopy op pl m) s = .next { s with path := some .copy })

/-- R253: P.SIMPLE picks one source sample per output sample, by truncated coordinates of the None slope. How a P
operation takes its operands and what it leaves besides memory, PATH and STEP_* is the model's choice (log 5). -/
def Obligations.SimplePicksByCoordinate : Prop :=
  ∀ (op : ScaleOp) (pl : Planes) (m : FilterMode) (s : State), pathRuns .simple op pl m s.cfg = true →
    let st := scaleSlope pl.srcW.toInt (srcHeight pl) pl.dstW.toInt pl.dstH.toInt .none
    exec (.pSimple op pl m) s =
      .next (afterPath .simple st
        (storePlane op pl
          (fun j c => srcSample op pl s.mem ((st.y + j * st.dy) / 65536) ((st.x + c * st.dx) / 65536)) s.mem) s)

/-- R213, R214: P.VERTICAL, for every size but the overflow of its step. That at ratio 1, which no dispatch gives to
VERTICAL (R143), the last row is not cut by max_y, as R153 says, is the model's reading, DEDUCED (log 20). How a P
operation takes its operands and what it leaves besides memory, PATH and STEP_* is the model's choice (log 5). -/
def Obligations.VerticalInterpolatesRows : Prop :=
  ∀ (op : ScaleOp) (pl : Planes) (m : FilterMode) (s : State), pathRuns .vertical op pl m s.cfg = true →
    dstWidth pl = srcWidth pl → ¬ (srcHeight pl = 32768 ∧ dstHeight pl = 1) →
    let h : Int := srcHeight pl
    let hd : Int := dstHeight pl
    let dy : Int := if hd ≤ h then h * 65536 / hd else if 1 < h then (h * 65536 - 65537) / (hd - 1) else 0
    let y : Int := if hd ≤ h then dy / 2 - 32768 else 0
    let maxY : Int :=
      if h ≤ 1 then 0 else if pl.dstW = pl.srcW ∧ hd = h then (h - 1) * 65536 else (h - 1) * 65536 - 1
    let out : Nat → Nat → Nat := fun j c =>
      let yj := min (y + j * dy) maxY
      interpolated (srcSample op pl s.mem (yj / 65536) c) (srcSample op pl s.mem (yj / 65536 + 1) c)
        (if m = .bilinear then (yj / 256 % 256).toNat else 0)
    exec (.pVertical op pl m) s =
      .next (afterPath .vertical { x := 0, y := y, dx := 0, dy := dy } (storePlane op pl out s.mem) s)

/-- R216, R218: P.DOWN2 and P.DOWN4. How a P operation takes its operands and what it leaves besides memory, PATH and
STEP_* is the model's choice (log 5). -/
def Obligations.HalvesAndQuarters : Prop :=
  ∀ (op : ScaleOp) (pl : Planes) (m : FilterMode) (s : State),
    let px : Int → Int → Nat := srcSample op pl s.mem
    (pathRuns .down2 op pl m s.cfg = true →
      exec (.pDown2 op pl m) s =
        .next (afterPath .down2 noStep
          (storePlane op pl (fun j c =>
            match m with
            | .none => px (2 * j + 1) (2 * c + 1)
            | .linear => (px (2 * j) (2 * c) + px (2 * j) (2 * c + 1) + 1) / 2
            | .bilinear | .box =>
              (px (2 * j) (2 * c) + px (2 * j) (2 * c + 1) + px (2 * j + 1) (2 * c) + px (2 * j + 1) (2 * c + 1) + 2) / 4)
            s.mem) s)) ∧
    (pathRuns .down4 op pl m s.cfg = true →
      exec (.pDown4 op pl m) s =
        .next (afterPath .down4 noStep
          (storePlane op pl (fun j c =>
            if m = .none then px (4 * j + 2) (4 * c + 2)
            else (((List.range 4).map fun (r : Nat) => sumAt (fun (k : Nat) => px (4 * j + r) k) ((List.range 4).map (4 * c + ·))).sum + 8)
              / 16)
            s.mem) s))

/-- R220, R168 to R170: P.DOWN34; under Linear the second row is the first. How a P operation takes its operands and
what it leaves besides memory, PATH and STEP_* is the model's choice (log 5). -/
def Obligations.ThreeQuarterPath : Prop :=
  ∀ (op : ScaleOp) (pl : Planes) (m : FilterMode) (s : State), pathRuns .down34 op pl m s.cfg = true →
    let row : Nat → Nat → Nat := fun r c => srcSample op pl s.mem r c
    let second : Nat → Nat → Nat := fun a b => if m = .linear then a else b
    let pick : Nat → Nat := fun i => 4 * (i / 3) + (if i % 3 = 2 then 3 else i % 3)
    let out : Nat → Nat → Nat := fun j c =>
      let b := 4 * (j / 3)
      if m = .none then row (pick j) (pick c)
      else match j % 3 with
        | 0 => (3 * threeQuarters (row b) c + threeQuarters (row (second b (b + 1))) c + 2) / 4
        | 1 => (threeQuarters (row (b + 1)) c + threeQuarters (row (second (b + 1) (b + 2))) c + 1) / 2
        | _ => (3 * threeQuarters (row (b + 3)) c + threeQuarters (row (second (b + 3) (b + 2))) c + 2) / 4
    exec (.pDown34 op pl m) s = .next (afterPath .down34 noStep (storePlane op pl out s.mem) s)

/-- R223, R171 to R173: P.DOWN38; under Linear the box's rows are its first row. How a P operation takes its operands
and what it leaves besides memory, PATH and STEP_* is the model's choice (log 5). -/
def Obligations.ThreeEighthsPath : Prop :=
  ∀ (op : ScaleOp) (pl : Planes) (m : FilterMode) (s : State), pathRuns .down38 op pl m s.cfg = true →
    let row : Nat → Nat → Nat := fun r c => srcSample op pl s.mem r c
    let pick : Nat → Nat := fun i => 8 * (i / 3) + 3 * (i % 3)
    let out : Nat → Nat → Nat := fun j c =>
      let rows := threeEighthsColumns j
      let rows := if m = .linear then rows.map (fun _ => pick j) else rows
      let total := (rows.map fun r => sumAt (row r) (threeEighthsColumns c)).sum
      let weight := if j % 3 = 2 ∧ c % 3 = 2 then 16384 else if j % 3 = 2 ∨ c % 3 = 2 then 10922 else 7281
      if m = .none then row (pick j) (pick c) else total * weight / 65536
    exec (.pDown38 op pl m) s = .next (afterPath .down38 noStep (storePlane op pl out s.mem) s)

/-- R228, R229 with R185 to R187: P.BOX averages the boxes that the 16.16 walk of both axes cuts, through accumulators
of 16 or 32 bits. How a P operation takes its operands and what it leaves besides memory, PATH and STEP_* is the model's
choice (log 5). -/
def Obligations.BoxAverages : Prop :=
  ∀ (op : ScaleOp) (pl : Planes) (m : FilterMode) (s : State), pathRuns .box op pl m s.cfg = true →
    let st := scaleSlope pl.srcW.toInt (srcHeight pl) pl.dstW.toInt pl.dstH.toInt .box
    let edge : Int → Nat → Int → Nat := fun d k size => (min (k * d) (size * 65536) / 65536).toNat
    let accBits : Nat := if op = .scale8 then 16 else 32
    let out : Nat → Nat → Nat := fun j c =>
      let y0 := edge st.dy j (srcHeight pl)
      let bh := max 1 (edge st.dy (j + 1) (srcHeight pl) - y0)
      let x0 := edge st.dx c (srcWidth pl)
      let bw := max 1 (edge st.dx (c + 1) (srcWidth pl) - x0)
      let acc : Nat → Nat := fun k =>
        ((List.range bh).map fun r => srcSample op pl s.mem (y0 + r : Nat) k).sum % 2 ^ accBits
      boxDiv s.cfg.boxRound (sampleWidth op) (sumAt acc ((List.range bw).map (x0 + ·))) (65536 / (bw * bh))
    exec (.pBox op pl m) s = .next (afterPath .box st (storePlane op pl out s.mem) s)

/-- R235, R241: P.UP2_LINEAR, and P.UP2_LINEAR_12 when no row it reads holds a sample above 4095. How a P operation
takes its operands and what it leaves besides memory, PATH and STEP_* is the model's choice (log 5). -/
def Obligations.DoubledRowsLinear : Prop :=
  ∀ (op : ScaleOp) (pl : Planes) (m : FilterMode) (s : State),
    let h := srcHeight pl
    let hd := dstHeight pl
    let out : ScaleOp → Nat → Nat → Nat := fun o j c =>
      doubledRow (fun k => srcSample o pl s.mem (doubledRowIndex h hd j) k) (dstWidth pl) c
    (pathRuns .up2Linear op pl m s.cfg = true →
      exec (.pUp2Linear op pl m) s =
        .next (afterPath .up2Linear noStep (storePlane op pl (out op) s.mem) s)) ∧
    (pathRuns .up2Linear12 .scale12 pl m s.cfg = true →
      (∀ r c : Nat, checkedRow .up2Linear12 pl r → c < srcWidth pl → srcSample .scale12 pl s.mem r c ≤ 4095) →
      exec (.pUp2Linear12 pl m) s =
        .next (afterPath .up2Linear12 noStep (storePlane .scale12 pl (out .scale12) s.mem) s))

/-- R238, R242: P.UP2_BILINEAR, and P.UP2_BILINEAR_12 on samples of at most 12 bits. How a P operation takes its
operands and what it leaves besides memory, PATH and STEP_* is the model's choice (log 5). -/
def Obligations.DoubledPlaneBilinear : Prop :=
  ∀ (op : ScaleOp) (pl : Planes) (m : FilterMode) (s : State), Memory.wf s.mem = true →
    let h := srcHeight pl
    let hd := dstHeight pl
    let out : ScaleOp → Nat → Nat → Nat := fun o j c =>
      let row : Nat → Nat → Nat := fun r k => srcSample o pl s.mem r k
      let i := (j - 1) / 2
      if j = 0 then doubledPair (row 0) (row 0) (dstWidth pl) c
      else if j = hd - 1 ∧ hd % 2 = 0 then doubledPair (row (h - 1)) (row (h - 1)) (dstWidth pl) c
      else if j % 2 = 1 then doubledPair (row i) (row (i + 1)) (dstWidth pl) c
      else doubledPair (row (i + 1)) (row i) (dstWidth pl) c
    (pathRuns .up2Bilinear op pl m s.cfg = true →
      exec (.pUp2Bilinear op pl m) s =
        .next (afterPath .up2Bilinear noStep (storePlane op pl (out op) s.mem) s)) ∧
    (pathRuns .up2Bilinear12 .scale12 pl m s.cfg = true →
      (∀ r c : Nat, r < h → c < srcWidth pl → srcSample .scale12 pl s.mem r c ≤ 4095) →
      exec (.pUp2Bilinear12 pl m) s =
        .next (afterPath .up2Bilinear12 noStep (storePlane .scale12 pl (out .scale12) s.mem) s))

/-- R245, R247: P.BILINEAR_UP on more rows than the source has: Linear picks the row, Bilinear blends two filtered rows.
How a P operation takes its operands and what it leaves besides memory, PATH and STEP_* is the model's choice (log 5).
-/
def Obligations.BilinearUpBlends : Prop :=
  ∀ (op : ScaleOp) (pl : Planes) (m : FilterMode) (s : State), pathRuns .bilinearUp op pl m s.cfg = true →
    srcHeight pl < dstHeight pl →
    let h : Int := srcHeight pl
    let st := scaleSlope pl.srcW.toInt h pl.dstW.toInt pl.dstH.toInt m
    let filtered : Int → Nat → Nat := fun r c =>
      blended (blendOf s.cfg op) (fun k => srcSample op pl s.mem r k) (st.x + c * st.dx)
    let out : Nat → Nat → Nat := fun j c =>
      if m = .bilinear then
        interpolated (filtered (j * st.dy / 65536) c) (filtered (j * st.dy / 65536 + 1) c)
          ((j * st.dy : Int) / 256 % 256).toNat
      else filtered (min ((min st.y ((h - 1) * 65536) + j * st.dy) / 65536) (h - 1)) c
    exec (.pBilinearUp op pl m) s = .next (afterPath .bilinearUp st (storePlane op pl out s.mem) s)

/-- R250, R252: P.BILINEAR_DOWN: Bilinear blends the columns of an interpolated row, Linear those of a picked row. How a
P operation takes its operands and what it leaves besides memory, PATH and STEP_* is the model's choice (log 5). -/
def Obligations.BilinearDownBlends : Prop :=
  ∀ (op : ScaleOp) (pl : Planes) (m : FilterMode) (s : State), pathRuns .bilinearDown op pl m s.cfg = true →
    let h : Int := srcHeight pl
    let st := scaleSlope pl.srcW.toInt h pl.dstW.toInt pl.dstH.toInt m
    let out : Nat → Nat → Nat := fun j c =>
      let yj := min (st.y + j * st.dy) ((h - 1) * 65536)
      let px : Int → Int → Nat := srcSample op pl s.mem
      let row : Int → Nat := fun k =>
        if m = .bilinear then interpolated (px (yj / 65536) k) (px (yj / 65536 + 1) k) (yj / 256 % 256).toNat
        else px (yj / 65536) k
      blended (blendOf s.cfg op) row (st.x + c * st.dx)
    exec (.pBilinearDown op pl m) s = .next (afterPath .bilinearDown st (storePlane op pl out s.mem) s)

/-- R213, R305 (b), R267: the overflowed step of VERTICAL from 32768 rows to one: ERR_OOB, the step as the rule gives
it, and the destination footprint, and nothing else, unspecified. How a P operation takes its operands and what it
leaves besides memory, PATH and STEP_* is the model's choice (log 5). -/
def Obligations.VerticalOverflowRaisesOob : Prop :=
  ∀ (op : ScaleOp) (pl : Planes) (m : FilterMode) (s : State), pathRuns .vertical op pl m s.cfg = true →
    Memory.wf s.mem = true → undisturbed s = true → srcHeight pl = 32768 → dstHeight pl = 1 →
    ∃ t, exec (.pVertical op pl m) s = .next t ∧ t.err = some .oob ∧ t.done = true ∧ t.phase = .idle ∧
      t.path = some .vertical ∧ t.stepX = 0#32 ∧ t.stepDX = 0#32 ∧
      t.stepY.toInt = -1073709056 ∧ t.stepDY.toInt = -2147483648 ∧
      ∀ a : Nat,
        (inSpans (dstSpans op pl) a = false → Memory.read t.mem a = Memory.read s.mem a) ∧
        (inSpans (dstSpans op pl) a = true → Memory.read t.mem a = Config.freeByte s.free a)

/-- R243, R307, R267: a sample above 4095 that a 12-bit path reads ends it with ERR_RANGE12, with the destination
footprint unspecified. P.UP2_BILINEAR_12 reads every sample, P.UP2_LINEAR_12 every sample of the rows it doubles. How a
P operation takes its operands and what it leaves besides memory, PATH and STEP_* is the model's choice (log 5). -/
def Obligations.WideSamplesRaiseRange12 : Prop :=
  ∀ (pl : Planes) (m : FilterMode) (s : State) (r c : Nat), Memory.wf s.mem = true → undisturbed s = true →
    r < srcHeight pl → c < srcWidth pl → 4095 < srcSample .scale12 pl s.mem r c →
    let report : PathCode → State → Prop := fun p t =>
      t.err = some .range12 ∧ t.done = true ∧ t.phase = .idle ∧ t.path = some p ∧
      ∀ a : Nat,
        (inSpans (dstSpans .scale12 pl) a = false → Memory.read t.mem a = Memory.read s.mem a) ∧
        (inSpans (dstSpans .scale12 pl) a = true → Memory.read t.mem a = Config.freeByte s.free a)
    (pathRuns .up2Bilinear12 .scale12 pl m s.cfg = true →
      ∃ t, exec (.pUp2Bilinear12 pl m) s = .next t ∧ report .up2Bilinear12 t) ∧
    (pathRuns .up2Linear12 .scale12 pl m s.cfg = true → checkedRow .up2Linear12 pl r →
      ∃ t, exec (.pUp2Linear12 pl m) s = .next t ∧ report .up2Linear12 t)

/-- R314, U3, R300, R311: a P operation is refused, by name, exactly outside its preconditions: the checks before
dispatch, the exact ratio of its path, and a mode its rule gives rows for; it never faults. Which calls are refused is
the model's choice (log 13). A check after dispatch that fails is reported, with PATH set and nothing else but the end
of the command. How a P operation takes its operands and what it leaves besides memory, PATH and STEP_* is the model's
choice (log 5). -/
def Obligations.PathsRefuseOutsidePreconditions : Prop :=
  ∀ (p : PathCode) (op : ScaleOp) (pl : Planes) (m : FilterMode) (s : State),
    (p = .up2Linear12 ∨ p = .up2Bilinear12 → op = .scale12) →
    let w := pl.srcW.toInt
    let h : Int := srcHeight pl
    let wd := pl.dstW.toInt
    let hd := pl.dstH.toInt
    let otherRatio : Prop :=
      (p = .down34 ∧ ¬ (4 * wd = 3 * w ∧ 4 * hd = 3 * h)) ∨ (p = .down2 ∧ ¬ (2 * wd = w ∧ 2 * hd = h)) ∨
      (p = .down38 ∧ ¬ (8 * wd = 3 * w ∧ 8 * hd = 3 * h)) ∨ (p = .down4 ∧ ¬ (4 * wd = w ∧ 4 * hd = h)) ∨
      ((p = .up2Linear ∨ p = .up2Linear12) ∧ (wd + 1) / 2 ≠ w) ∨
      ((p = .up2Bilinear ∨ p = .up2Bilinear12) ∧ ¬ ((hd + 1) / 2 = h ∧ (wd + 1) / 2 = w))
    (exec (pathInstr p op pl m) s = .refused .pathPrecondition ↔
      preCheck s.cfg op pl ≠ none ∨ otherRatio ∨
        (p = .down4 ∧ m ≠ .none ∧ m ≠ .box) ∨
        ((p = .bilinearUp ∨ p = .bilinearDown) ∧ m ≠ .linear ∧ m ≠ .bilinear)) ∧
    (exec (pathInstr p op pl m) s ≠ .refused .pathPrecondition →
      ∃ t, exec (pathInstr p op pl m) s = .next t ∧ SameHostSide s t) ∧
    (∀ e, undisturbed s = true → pathReady p op pl m s.cfg = true → postCheck s.cfg op pl p = .fails e →
      exec (pathInstr p op pl m) s = .next { s with
        path := some p, done := true, err := some e, phase := .idle, scratchGen := s.scratchGen + 1 })

/-- R269, R75: two runs of a command with equal parameters, equal latched operands and equal source bytes agree on
STATUS and STEP_*, and on every destination byte when no error is reported, whatever else memory and the registers hold.
In an Idle state the operands are the registers as START would latch them, the model's choice (log 9). -/
def Obligations.CommandsAreRepeatable : Prop :=
  ∀ (op : ScaleOp) (f : FilterMode) (s t : State),
    undisturbed s = true → undisturbed t = true → Memory.wf s.mem = true → Memory.wf t.mem = true →
    s.cfg = t.cfg → commandPlanes s = commandPlanes t →
    (∀ a : Nat, inSpans (srcSpans op (commandPlanes s)) a = true → Memory.read s.mem a = Memory.read t.mem a) →
    ∃ s' t', exec (commandInstr op f) s = .next s' ∧ exec (commandInstr op f) t = .next t' ∧
      statusWord s' = statusWord t' ∧ s'.stepX = t'.stepX ∧ s'.stepY = t'.stepY ∧ s'.stepDX = t'.stepDX ∧
      s'.stepDY = t'.stepDY ∧
      (s'.err = none → ∀ a : Nat, inSpans (dstSpans op (commandPlanes s)) a = true →
        Memory.read s'.mem a = Memory.read t'.mem a)

/-- R254, R64, R142: a vertically mirrored source gives the output of the same source with its rows reversed in memory.
In an Idle state the operands are the registers as START would latch them, the model's choice (log 9). -/
def Obligations.VerticalMirrorReversesRows : Prop :=
  ∀ (op : ScaleOp) (f : FilterMode) (s t : State),
    undisturbed s = true → undisturbed t = true → Memory.wf s.mem = true → Memory.wf t.mem = true → s.cfg = t.cfg →
    let pl := commandPlanes s
    let up := commandPlanes t
    pl.srcH.toInt < 0 → up = { pl with srcH := -pl.srcH } →
    preCheck s.cfg op pl = none → postCheck s.cfg op pl (dispatch op pl f).path = .runs →
    (∀ r c : Nat, r < srcHeight pl → c < srcWidth pl →
      srcSample op up t.mem ((srcHeight pl - 1 - r : Nat) : Int) c = srcSample op { pl with srcH := -pl.srcH } s.mem r c) →
    ∃ s' t', exec (commandInstr op f) s = .next s' ∧ exec (commandInstr op f) t = .next t' ∧
      statusWord s' = statusWord t' ∧
      (s'.err = none → ∀ r c : Nat, r < dstHeight pl → c < dstWidth pl →
        dstSample op pl s'.mem r c = dstSample op pl t'.mem r c)

/-! ### The fixed-point stepper -/

/-- R100, R101, R102, R105: FX.DIV, FX.DIV1 and FX.CENTER, with the divisors they refuse. The result port that holds the
answer is the model's own (log 5). That FX.CENTER computes its formula on every d and offset, of any size, is the
model's choice (log 23). That FixedDiv does not wrap where num << 16 passes R100's 64-bit intermediate (num at least
2^47) is the model's choice (log 21). -/
def Obligations.FixedPointHelpers : Prop :=
  ∀ (num den : Nat) (d off : Int) (s : State),
    let wrap : Int → Int := fun v => (v + 2147483648) % 4294967296 - 2147483648
    (1 ≤ den → exec (.fxDiv num den) s = .next { s with result := .number (wrap ((num * 65536 / den : Nat) : Int)) }) ∧
    (den = 0 → exec (.fxDiv num den) s = .refused .fixedDivByZero) ∧
    (2 ≤ num → 2 ≤ den →
      exec (.fxDiv1 num den) s =
        .next { s with result := .number (wrap (((num * 65536 - 65537) / (den - 1) : Nat) : Int)) }) ∧
    (2 ≤ den → exec (.fxDiv1 1 den) s = .next { s with result := .number (if den = 2 then -1 else 0) }) ∧
    (den ≤ 1 → exec (.fxDiv1 num den) s = .refused .fixedDiv1Guard) ∧
    (0 ≤ d → exec (.fxCenter d off) s = .next { s with result := .number (d / 2 + off) }) ∧
    (d < 0 → exec (.fxCenter d off) s = .next { s with result := .number (-((-d) / 2 + off)) })

/-- R103, R104: FixedDiv is exact but for 32768 / 1, and FixedDiv1 keeps the last destination sample's right neighbour
inside the row. -/
def Obligations.FixedDivEndpoints : Prop :=
  (∀ num den : Nat, 1 ≤ num → num ≤ 32768 → 1 ≤ den → den ≤ 32768 →
    num * 65536 / den ≤ 2 ^ 31 ∧ (num * 65536 / den = 2 ^ 31 ↔ num = 32768 ∧ den = 1) ∧
    (¬ (num = 32768 ∧ den = 1) → fixedDiv num den = (num * 65536 / den : Nat)) ∧ fixedDiv 32768 1 = -(2 ^ 31)) ∧
  (∀ num den : Nat, 2 ≤ num → 2 ≤ den →
    ((den : Int) - 1) * fixedDiv1 num den ≤ ((num : Int) - 1) * 65536 - 1 ∧
    ((den : Int) - 1) * fixedDiv1 num den / 65536 ≤ (num : Int) - 2) ∧
  (∀ num den : Nat, 2 ≤ num → num < den → den ≤ 32768 →
    0 ≤ fixedDiv1 num den ∧ fixedDiv1 num den < 65536 ∧ 0 < ((den : Int) - 1) * fixedDiv1 num den % 65536)

/-- R101, R106 to R109, R113: the slope of every mode, on the sizes after the overflow edge case, and of a mirrored
source. A FixedDiv call with den = 0 is refused; that FX.SLOPE answers a step on every other operand outside the domain
of R106, of which nothing is said here, is the model's choice (log 21). The result port that holds the answer is the
model's own (log 5). That FixedDiv does not wrap where num << 16 passes R100's 64-bit intermediate (a size of at least
2^47) is the model's choice (log 21). -/
def Obligations.SlopeByMode : Prop :=
  (∀ (w h dstW dstH : Int) (m : FilterMode) (s : State), 1 ≤ w → 1 ≤ h → 1 ≤ dstW → 1 ≤ dstH →
    let dw := if dstW = 1 ∧ 32768 ≤ w then w else dstW
    let dh := if dstH = 1 ∧ 32768 ≤ h then h else dstH
    let dx := fixedDiv w dw
    let dy := fixedDiv h dh
    let start : Int → Int → Int := fun d off => if 0 ≤ d then d / 2 + off else -((-d) / 2 + off)
    let axis : Int → Int → Int × Int := fun size dst =>
      if dst ≤ size then (start (fixedDiv size dst) (-32768), fixedDiv size dst)
      else if 1 < size then (0, fixedDiv1 size dst) else (0, 0)
    let st : ScaleStep :=
      match m with
      | .box => { x := 0, y := 0, dx := dx, dy := dy }
      | .bilinear => { x := (axis w dw).1, y := (axis h dh).1, dx := (axis w dw).2, dy := (axis h dh).2 }
      | .linear => { x := (axis w dw).1, y := dy / 2, dx := (axis w dw).2, dy := dy }
      | .none => { x := start dx 0, y := start dy 0, dx := dx, dy := dy }
    exec (.fxSlope w h dstW dstH m) s = .next { s with result := .step st } ∧
    exec (.fxSlope (-w) h dstW dstH m) s =
      .next { s with result := .step { st with x := st.x + (dw - 1) * st.dx, dx := -st.dx } }) ∧
  (∀ (srcW srcH dstW dstH : Int) (m : FilterMode) (s : State),
    let noDivisor : Prop := dstW = 0 ∨ (dstH = 0 ∧ (m ≠ .bilinear ∨ 0 ≤ srcH))
    (noDivisor → exec (.fxSlope srcW srcH dstW dstH m) s = .refused .fixedDivByZero) ∧
    (¬ noDivisor → ∃ st, exec (.fxSlope srcW srcH dstW dstH m) s = .next { s with result := .step st }))

/-- R112, R113, R253: the slope of a legal plane keeps every coordinate inside the source, and a horizontal mirror walks
the same columns from the right edge. -/
def Obligations.SlopeStaysInside : Prop :=
  ∀ (w h dstW dstH : Int) (m : FilterMode), 1 ≤ w → w ≤ 32768 → 1 ≤ h → h ≤ 32768 → 1 ≤ dstW → dstW ≤ 32768 →
    1 ≤ dstH → dstH ≤ 32768 →
    let st := scaleSlope w h dstW dstH m
    let mr := scaleSlope (-w) h dstW dstH m
    let dw := if dstW = 1 ∧ 32768 ≤ w then w else dstW
    0 ≤ st.x ∧ 0 ≤ st.y ∧ 0 ≤ st.dx ∧ 0 ≤ st.dy ∧
    (∀ j : Int, 0 ≤ j → j < dstW →
      st.x + j * st.dx < w * 65536 ∧ (m = .bilinear ∨ m = .linear → st.x + j * st.dx ≤ (w - 1) * 65536)) ∧
    (∀ j : Int, 0 ≤ j → j < dstH →
      st.y + j * st.dy < h * 65536 ∧ (m = .bilinear → st.y + j * st.dy ≤ (h - 1) * 65536)) ∧
    mr.y = st.y ∧ mr.dy = st.dy ∧ mr.dx = -st.dx ∧
    (∀ j : Int, mr.x + j * mr.dx = st.x + (dw - 1 - j) * st.dx)

/-! ### The selector -/

/-- R130 to R133, R140 to R150, R155: FR.REDUCE, FR.SELECT and FR.SELECT12 answer what the ordered steps give. The
result port that holds the answer is the model's own (log 5). -/
def Obligations.SelectorFollowsTheSteps : Prop :=
  ∀ (srcW srcH dstW dstH : Int) (req : FilterMode) (s : State), srcW ≠ 0 → srcH ≠ 0 → 1 ≤ dstW → 1 ≤ dstH →
    let w := |srcW|
    let h := |srcH|
    let m1 : FilterMode := if req = .box ∧ (2 * dstW ≥ w ∨ 2 * dstH ≥ h) then .bilinear else req
    let m2 : FilterMode :=
      if m1 = .bilinear then (if w = 1 then .none else if h = 1 ∨ dstH = h ∨ 3 * dstH = h then .linear else m1) else m1
    let m : FilterMode := if m2 = .linear ∧ (w = 1 ∨ dstW = w ∨ 3 * dstW = w) then .none else m2
    let down : Prop := dstW ≤ w ∧ dstH ≤ h
    let twice : Int → Int → Prop := fun src dst => (dst + 1) / 2 = src
    let path : PathCode :=
      if dstW = srcW ∧ dstH = h then .copy
      else if dstW = srcW ∧ m ≠ .box then .vertical
      else if down ∧ 4 * dstW = 3 * srcW ∧ 4 * dstH = 3 * h then .down34
      else if down ∧ 2 * dstW = srcW ∧ 2 * dstH = h then .down2
      else if down ∧ 8 * dstW = 3 * srcW ∧ 8 * dstH = 3 * h then .down38
      else if down ∧ 4 * dstW = srcW ∧ 4 * dstH = h ∧ (m = .box ∨ m = .none) then .down4
      else if m = .box ∧ 2 * dstH < h then .box
      else if twice srcW dstW ∧ m = .linear then .up2Linear
      else if twice h dstH ∧ twice srcW dstW ∧ (m = .bilinear ∨ m = .box) then .up2Bilinear
      else if m ≠ .none ∧ dstH > h then .bilinearUp
      else if m ≠ .none then .bilinearDown
      else .simple
    let path12 : PathCode :=
      if twice srcW dstW ∧ m = .linear then .up2Linear12
      else if twice h dstH ∧ twice srcW dstW ∧ (m = .bilinear ∨ m = .box) then .up2Bilinear12
      else path
    exec (.frReduce srcW srcH dstW dstH req) s = .next { s with result := .mode m } ∧
    exec (.frSelect srcW srcH dstW dstH req) s = .next { s with
      result := .selection { path := path, mode := m, flipped := srcH < 0, height := h.toNat } } ∧
    exec (.frSelect12 srcW srcH dstW dstH req) s = .next { s with
      result := .selection { path := path12, mode := m, flipped := srcH < 0, height := h.toNat } }

/-- R134: the laws of the reducer, (a) to (f). -/
def Obligations.ReducerLaws : Prop :=
  ∀ (srcW srcH dstW dstH : Int) (req : FilterMode), srcW ≠ 0 → srcH ≠ 0 → 1 ≤ dstW → 1 ≤ dstH →
    let w := |srcW|
    let h := |srcH|
    let m := reduce srcW srcH dstW dstH req
    (filterBits m).toNat ≤ (filterBits req).toNat ∧
    reduce srcW srcH dstW dstH m = m ∧
    (m = .box → 2 * dstW < w ∧ 2 * dstH < h) ∧
    (m = .bilinear → 2 ≤ w ∧ 2 ≤ h ∧ dstH ≠ h ∧ 3 * dstH ≠ h) ∧
    (m = .linear → 2 ≤ w ∧ dstW ≠ w ∧ 3 * dstW ≠ w) ∧
    (req = .none → m = .none)

/-- R151: the pairs of path and mode that dispatch reaches, for every legal request. -/
def Obligations.ReachablePairs : Prop :=
  ∀ (srcW srcH dstW dstH : Int) (f : FilterMode), srcW ≠ 0 → srcH ≠ 0 → 1 ≤ dstW → 1 ≤ dstH →
    ∀ sel : Selection, sel = select srcW srcH dstW dstH f ∨ sel = select12 srcW srcH dstW dstH f →
      (sel.path = .copy ∨ sel.path = .simple → sel.mode = .none) ∧
      (sel.path = .vertical → sel.mode = .none ∨ sel.mode = .bilinear) ∧
      (sel.path = .down34 ∨ sel.path = .down2 → sel.mode ≠ .box) ∧
      (sel.path = .down4 → sel.mode = .none ∨ sel.mode = .box) ∧
      (sel.path = .box → sel.mode = .box) ∧
      (sel.path = .up2Linear ∨ sel.path = .up2Linear12 → sel.mode = .linear) ∧
      (sel.path = .up2Bilinear ∨ sel.path = .up2Bilinear12 → sel.mode = .bilinear) ∧
      (sel.path = .bilinearUp ∨ sel.path = .bilinearDown → sel.mode = .linear ∨ sel.mode = .bilinear)

/-- R143, R145, R147, D36: a horizontally mirrored source runs on a generic path that mirrors, or is refused on BOX. -/
def Obligations.MirroredSourceTakesGenericPaths : Prop :=
  ∀ (srcW srcH dstW dstH : Int) (f : FilterMode), srcW < 0 → srcH ≠ 0 → 1 ≤ dstW → 1 ≤ dstH →
    ∀ sel : Selection, sel = select srcW srcH dstW dstH f ∨ sel = select12 srcW srcH dstW dstH f →
      sel.path = .box ∨ sel.path = .bilinearUp ∨ sel.path = .bilinearDown ∨ sel.path = .simple

/-! ### The row kernels -/

/-- R162 to R166: the kernels of the ratios 1/2 and 1/4. The result port that holds the answer is the model's own (log
5). That the formulas hold of samples above MAXV too is the model's choice (log 23). -/
def Obligations.HalfAndQuarterKernels : Prop :=
  ∀ (sw : SampleWidth) (s t u v : Row) (n : Nat) (st : State),
    (2 * n ≤ s.length →
      exec (.kDown2Point sw s n) st =
        .next { st with result := .row ((List.range n).map fun i => sampleOf s (2 * i + 1)) } ∧
      exec (.kDown2Linear sw s n) st =
        .next { st with
          result := .row ((List.range n).map fun i => (sampleOf s (2 * i) + sampleOf s (2 * i + 1) + 1) / 2) }) ∧
    (2 * n ≤ s.length → 2 * n ≤ t.length →
      exec (.kDown2Box sw s t n) st =
        .next { st with
          result := .row ((List.range n).map fun i =>
            (sampleOf s (2 * i) + sampleOf s (2 * i + 1) + sampleOf t (2 * i) + sampleOf t (2 * i + 1) + 2) / 4) }) ∧
    (4 * n ≤ s.length →
      exec (.kDown4Point sw s n) st =
        .next { st with result := .row ((List.range n).map fun i => sampleOf s (4 * i + 2)) }) ∧
    (4 * n ≤ s.length → 4 * n ≤ t.length → 4 * n ≤ u.length → 4 * n ≤ v.length →
      exec (.kDown4Box sw s t u v n) st =
        .next { st with
          result := .row ((List.range n).map fun i =>
            (([s, t, u, v].map fun r => sumAt (sampleOf r) ((List.range 4).map (4 * i + ·))).sum + 8) / 16) })

/-- R167 to R170: the kernels of the ratio 3/4. The result port that holds the answer is the model's own (log 5). That
the formulas hold of samples above MAXV too is the model's choice (log 23). -/
def Obligations.ThreeQuarterKernels : Prop :=
  ∀ (sw : SampleWidth) (s t : Row) (g : Nat) (st : State), 4 * g ≤ s.length →
    exec (.kDown34Point sw s (3 * g)) st =
      .next { st with
        result := .row ((List.range (3 * g)).map fun i =>
          sampleOf s (4 * (i / 3) + (if i % 3 = 2 then 3 else i % 3))) } ∧
    (∀ k, k < g →
      exec (.kDown34H sw s k) st =
        .next { st with result := .row ((List.range 3).map fun i => threeQuarters (sampleOf s) (3 * k + i)) }) ∧
    (4 * g ≤ t.length →
      exec (.kDown34Box0 sw s t (3 * g)) st =
        .next { st with
          result := .row ((List.range (3 * g)).map fun i =>
            (3 * threeQuarters (sampleOf s) i + threeQuarters (sampleOf t) i + 2) / 4) } ∧
      exec (.kDown34Box1 sw s t (3 * g)) st =
        .next { st with
          result := .row ((List.range (3 * g)).map fun i =>
            (threeQuarters (sampleOf s) i + threeQuarters (sampleOf t) i + 1) / 2) })

/-- R171 to R173: the kernels of the ratio 3/8, with their truncated reciprocals. The result port that holds the answer
is the model's own (log 5). That the formulas hold of samples above MAXV too is the model's choice (log 23). -/
def Obligations.ThreeEighthsKernels : Prop :=
  ∀ (sw : SampleWidth) (s t u : Row) (g : Nat) (st : State), 8 * g ≤ s.length →
    let total : List Row → Nat → Nat := fun rows i =>
      (rows.map fun r => sumAt (sampleOf r) (threeEighthsColumns i)).sum
    exec (.kDown38Point sw s (3 * g)) st =
      .next { st with result := .row ((List.range (3 * g)).map fun i => sampleOf s (8 * (i / 3) + 3 * (i % 3))) } ∧
    (8 * g ≤ t.length →
      exec (.kDown38Box2 sw s t (3 * g)) st =
        .next { st with
          result := .row ((List.range (3 * g)).map fun i =>
            total [s, t] i * (if i % 3 = 2 then 16384 else 10922) / 65536) }) ∧
    (8 * g ≤ t.length → 8 * g ≤ u.length →
      exec (.kDown38Box3 sw s t u (3 * g)) st =
        .next { st with
          result := .row ((List.range (3 * g)).map fun i =>
            total [s, t, u] i * (if i % 3 = 2 then 10922 else 7281) / 65536) })

/-- R174 to R176: the 2x linear core writes the pairs of its range and nothing else, and the full row has its edges. The
result port that holds the answer is the model's own (log 5). That the formulas hold of samples above MAXV too is the
model's choice (log 23). -/
def Obligations.LinearDoublingKernels : Prop :=
  ∀ (sw : SampleWidth) (s : Row) (st : State),
    (∀ (p o : Nat) (d : Row), p + 1 ≤ s.length ∨ p = 0 → o + 2 * p ≤ d.length →
      exec (.kUp2LinearCore sw s p d o) st =
        .next { st with
          result := .row ((List.range d.length).map fun i =>
            let k := (i - o) / 2
            if i < o ∨ o + 2 * p ≤ i then sampleOf d i
            else if (i - o) % 2 = 0 then (3 * sampleOf s k + sampleOf s (k + 1) + 2) / 4
            else (sampleOf s k + 3 * sampleOf s (k + 1) + 2) / 4) }) ∧
    (∀ n, 1 ≤ n → (n + 1) / 2 ≤ s.length →
      exec (.kUp2Linear sw s n) st =
        .next { st with result := .row ((List.range n).map (doubledRow (sampleOf s) n)) })

/-- R177, R178: the 2x bilinear core and the full row pair. The result port that holds the answer is the model's own
(log 5). That the formulas hold of samples above MAXV too is the model's choice (log 23). -/
def Obligations.BilinearDoublingKernels : Prop :=
  ∀ (sw : SampleWidth) (s t : Row) (st : State),
    (∀ (p o : Nat) (d e : Row), (p + 1 ≤ s.length ∧ p + 1 ≤ t.length) ∨ p = 0 →
      o + 2 * p ≤ d.length → o + 2 * p ≤ e.length →
      let core : Row → Row → Row → Row := fun a b old =>
        (List.range old.length).map fun i =>
          let k := (i - o) / 2
          if i < o ∨ o + 2 * p ≤ i then sampleOf old i
          else if (i - o) % 2 = 0 then
            (9 * sampleOf a k + 3 * sampleOf a (k + 1) + 3 * sampleOf b k + sampleOf b (k + 1) + 8) / 16
          else (3 * sampleOf a k + 9 * sampleOf a (k + 1) + sampleOf b k + 3 * sampleOf b (k + 1) + 8) / 16
      exec (.kUp2BilinearCore sw s t p d e o) st = .next { st with result := .rowPair (core s t d) (core t s e) }) ∧
    (∀ n, 1 ≤ n → (n + 1) / 2 ≤ s.length → (n + 1) / 2 ≤ t.length →
      exec (.kUp2Bilinear sw s t n) st =
        .next { st with
          result := .rowPair ((List.range n).map (doubledPair (sampleOf s) (sampleOf t) n))
            ((List.range n).map (doubledPair (sampleOf t) (sampleOf s) n)) })

/-- R180 to R183: the column kernels on coordinates that stay in the row; a zero weight does not read the right
neighbour. The result port that holds the answer is the model's own (log 5). That the formulas hold of samples above
MAXV too is the model's choice (log 23). -/
def Obligations.ColumnKernels : Prop :=
  ∀ (sw : SampleWidth) (s : Row) (n : Nat) (x dx : Int) (st : State),
    let at16 : Nat → Int := fun j => x + j * dx
    let px : Int → Nat := fun i => sampleOf s i.toNat
    (∀ j, j < n → 0 ≤ at16 j ∧ at16 j / 65536 < s.length) →
    exec (.kColsPoint sw s n x dx) st =
      .next { st with result := .row ((List.range n).map fun j => px (at16 j / 65536)) } ∧
    ((∀ j, j < n → at16 j % 65536 ≠ 0 → at16 j / 65536 + 1 < s.length) →
      exec (.kColsBlend16 s n x dx) st =
        .next { st with result := .row ((List.range n).map fun j => blended .bits16 px (at16 j)) } ∧
      exec (.kColsBlend8 s n x dx) st =
        .next { st with result := .row ((List.range n).map fun j => blended st.cfg.blend8 px (at16 j)) }) ∧
    (st.cfg.blend8 = .bits7 → (∀ j, j < n → at16 j % 65536 / 512 ≠ 0 → at16 j / 65536 + 1 < s.length) →
      exec (.kColsBlend8 s n x dx) st =
        .next { st with result := .row ((List.range n).map fun j => blended .bits7 px (at16 j)) })

/-- R160, R184, R187: K.NARROW, K.INTERP and K.BOXDIV; K.INTERP with fraction 0 does not read its second row. R160
states K.NARROW for v in [0, 65535] and SCALE in [256, 32768], and the callers of K.BOXDIV give a reciprocal of at most
65536 (R186): that K.NARROW computes its formula on every v and SCALE, K.BOXDIV on every reciprocal, and K.INTERP on
samples above MAXV, is the model's choice (log 23). The result port that holds the answer is the model's own (log 5). -/
def Obligations.ArithmeticKernels : Prop :=
  ∀ (sw : SampleWidth) (s t : Row) (n v scale sum sc : Nat) (f8 : BitVec 8) (st : State),
    exec (.kNarrow v scale) st = .next { st with result := .number ((min 255 (v * scale / 65536) : Nat) : Int) } ∧
    (n ≤ s.length → n ≤ t.length ∨ f8 = 0#8 →
      exec (.kInterp sw s t n f8) st =
        .next { st with
          result := .row ((List.range n).map fun i => interpolated (sampleOf s i) (sampleOf t i) f8.toNat) }) ∧
    (let r : Nat := if st.cfg.boxRound = .nearest then 32768 else 0
     exec (.kBoxdiv .w8 sum sc) st = .next { st with result := .number (((sum * sc + r) / 65536 % 256 : Nat) : Int) } ∧
     exec (.kBoxdiv .w16 sum sc) st =
      .next { st with
        result := .number (((sum % 4294967296 * sc + r) % 4294967296 / 65536 % 65536 : Nat) : Int) })

/-- R185, R186: K.ADDROW with its accumulator wrap, and K.ADDCOLS with one reciprocal per box area. That K.ADDCOLS runs
outside its operand domain too, by its pseudocode where that gives a value (an integer dx ≤ 0) and with a free sample of
the width where it gives none (bh = 0, or a negative fractional dx), is the model's choice (log 22). The result port
that holds the answer is the model's own (log 5). That the formulas hold of samples and accumulator entries above their
width too is the model's choice (log 23). -/
def Obligations.BoxAccumulateKernels : Prop :=
  ∀ (sw : SampleWidth) (s acc : Row) (w bh n : Nat) (x dx : Int) (st : State),
    (w ≤ s.length → w ≤ acc.length →
      exec (.kAddrow sw s acc w) st =
        .next { st with
          result := .row ((List.range acc.length).map fun i =>
            if i < w then (sampleOf acc i + sampleOf s i) % (if sw = .w8 then 65536 else 4294967296)
            else sampleOf acc i) }) ∧
    (let x0 : Nat → Int := fun j => (x + j * dx) / 65536
     let bw : Nat → Nat := fun j => max 1 (x0 (j + 1) - x0 j).toNat
     1 ≤ bh → 0 < dx → 0 ≤ x → (∀ j, j < n → x0 j + bw j ≤ acc.length) →
      exec (.kAddcols sw acc bh n x dx) st =
        .next { st with
          result := .row ((List.range n).map fun j =>
            boxDiv st.cfg.boxRound sw (sumAt (sampleOf acc) ((List.range (bw j)).map ((x0 j).toNat + ·)))
              (65536 / (bw j * bh))) }) ∧
    (1 ≤ bh → dx ≤ 0 → dx % 65536 = 0 → (∀ j : Nat, j < n → 0 ≤ x / 65536 + (j : Int) ∧ x / 65536 + (j : Int) < acc.length) →
      exec (.kAddcols sw acc bh n x dx) st =
        .next { st with
          result := .row ((List.range n).map fun (j : Nat) =>
            boxDiv st.cfg.boxRound sw (sampleOf acc (x / 65536 + (j : Int)).toNat) (65536 / bh)) }) ∧
    (let width : Nat → Int := fun j =>
       if dx % 65536 = 0 then max 1 (dx / 65536) else max 1 ((x + (j + 1 : Nat) * dx) / 65536 - (x + j * dx) / 65536)
     let first : Nat → Int := fun j => if dx % 65536 = 0 then x / 65536 + j * width j else (x + j * dx) / 65536
     bh = 0 ∨ (dx < 0 ∧ dx % 65536 ≠ 0) → (∀ j, j < n → 0 ≤ first j ∧ first j + width j ≤ acc.length) →
      ∃ d : Row, d.length = n ∧ rowOk sw d = true ∧
        exec (.kAddcols sw acc bh n x dx) st = .next { st with result := .row d })

/-- R16, R67: a kernel on legal samples answers samples of its width (K.ADDROW accumulators of theirs), or raises
ERR_OOB; it never stops the machine. Every kernel raises ERR_OOB when its rule (R162 to R186) reads outside a row it was
given. The raise ends the running command (R300): ERR is ERR_OOB, DONE = 1 and the phase is Idle; PATH, EFF_FILTER,
STEP_* and the host's registers keep their values, and of memory the destination footprint of the running command
becomes unspecified (R267, free values, log 4) and no other byte changes. That K.ADDROW, K.ADDCOLS and the 2x core
kernels raise ERR_OOB too for an index outside the accumulator or the output row they were given is DEDUCED, the model's
choice (log 12). That an operation called outside a command raises too, leaving PATH, EFF_FILTER and STEP_* of the last
command, and the result port, are the model's choice (log 5); so is that the raise does not depend on the samples' size
(log 23) and that K.ADDCOLS reads its sums outside its operand domain too (log 22). -/
def Obligations.KernelsAnswerInRangeOrRaise : Prop :=
  (∀ (i : Instr) (sw : SampleWidth) (s : State), kernelWidth i = some sw → i.wf = true →
    (∃ r, exec i s = .next { s with result := r } ∧ resultInRange sw r = true) ∨
    exec i s = .next (raiseWhileRunning .oob s)) ∧
  (∀ (sw : SampleWidth) (r acc : Row) (w : Nat) (s : State), (Instr.kAddrow sw r acc w).wf = true →
    (∃ d, exec (.kAddrow sw r acc w) s = .next { s with result := .row d } ∧ accOk sw d = true) ∨
    exec (.kAddrow sw r acc w) s = .next (raiseWhileRunning .oob s)) ∧
  (∀ (sw : SampleWidth) (s t u v : Row) (n : Nat) (st : State),
    let raises : Instr → Prop := fun i => exec i st = .next (raiseWhileRunning .oob st)
    (s.length < 2 * n → raises (.kDown2Point sw s n) ∧ raises (.kDown2Linear sw s n)) ∧
    (s.length < 2 * n ∨ t.length < 2 * n → raises (.kDown2Box sw s t n)) ∧
    (s.length + 1 < 4 * n → raises (.kDown4Point sw s n)) ∧
    (s.length < 4 * n ∨ t.length < 4 * n ∨ u.length < 4 * n ∨ v.length < 4 * n → raises (.kDown4Box sw s t u v n)) ∧
    (s.length < 4 * n → raises (.kDown34Point sw s (3 * n))) ∧
    (s.length < 4 * (n + 1) → raises (.kDown34H sw s n)) ∧
    (s.length < 4 * n ∨ t.length < 4 * n → raises (.kDown34Box0 sw s t (3 * n)) ∧ raises (.kDown34Box1 sw s t (3 * n))) ∧
    (s.length + 1 < 8 * n → raises (.kDown38Point sw s (3 * n))) ∧
    (s.length < 8 * n ∨ t.length < 8 * n → raises (.kDown38Box2 sw s t (3 * n))) ∧
    (s.length < 8 * n ∨ t.length < 8 * n ∨ u.length < 8 * n → raises (.kDown38Box3 sw s t u (3 * n))) ∧
    (s.length < (n + 1) / 2 → raises (.kUp2Linear sw s n)) ∧
    (s.length < (n + 1) / 2 ∨ t.length < (n + 1) / 2 → raises (.kUp2Bilinear sw s t n)) ∧
    (∀ o : Nat, 1 ≤ n →
      (s.length ≤ n ∨ u.length < o + 2 * n → raises (.kUp2LinearCore sw s n u o)) ∧
      (s.length ≤ n ∨ t.length ≤ n ∨ u.length < o + 2 * n ∨ v.length < o + 2 * n →
        raises (.kUp2BilinearCore sw s t n u v o))) ∧
    (∀ f8 : BitVec 8, s.length < n ∨ (f8 ≠ 0#8 ∧ t.length < n) → raises (.kInterp sw s t n f8)) ∧
    (s.length < n ∨ t.length < n → raises (.kAddrow sw s t n))) ∧
  (∀ (sw : SampleWidth) (s : Row) (n j bh : Nat) (x dx : Int) (st : State), j < n →
    let raises : Instr → Prop := fun i => exec i st = .next (raiseWhileRunning .oob st)
    let col : Int := (x + j * dx) / 65536
    let frac : Int := (x + j * dx) % 65536
    let weight8 : Int := if st.cfg.blend8 = .bits7 then frac / 512 else frac
    let width : Int := if dx % 65536 = 0 then max 1 (dx / 65536) else max 1 ((x + (j + 1 : Nat) * dx) / 65536 - col)
    let first : Int := if dx % 65536 = 0 then x / 65536 + j * width else col
    (col < 0 ∨ s.length ≤ col → raises (.kColsPoint sw s n x dx)) ∧
    (col < 0 ∨ s.length ≤ col ∨ (weight8 ≠ 0 ∧ s.length ≤ col + 1) → raises (.kColsBlend8 s n x dx)) ∧
    (col < 0 ∨ s.length ≤ col ∨ (frac ≠ 0 ∧ s.length ≤ col + 1) → raises (.kColsBlend16 s n x dx)) ∧
    (first < 0 ∨ s.length < first + width → raises (.kAddcols sw s bh n x dx))) ∧
  (∀ s : State,
    let t := raiseWhileRunning .oob s
    t.err = some .oob ∧ t.done = true ∧ t.phase = .idle ∧ t.path = s.path ∧ t.effFilter = s.effFilter ∧
    t.stepX = s.stepX ∧ t.stepY = s.stepY ∧ t.stepDX = s.stepDX ∧ t.stepDY = s.stepDY ∧ SameHostSide s t ∧
    (s.phase = .idle → t.mem = s.mem) ∧
    (∀ c d, s.phase = .busy c d →
      (latchedScaleOp c = none → t.mem = s.mem) ∧
      (∀ op, latchedScaleOp c = some op → Memory.wf s.mem = true → ∃ k, ∀ a : Nat,
        (inSpans (dstSpans op c.planes) a = false → Memory.read t.mem a = Memory.read s.mem a) ∧
        (inSpans (dstSpans op c.planes) a = true → memValid s.cfg a = true →
          Memory.read t.mem a = Config.freeByte k a))))

/-! ### Equivalences of the paths -/

/-- R153: the point fast paths, and COPY, store what SIMPLE stores on the same planes; and at ratio 1 VERTICAL stores
what COPY stores, sample by sample, which against R214's max_y is the model's reading, DEDUCED (log 20). How a P
operation takes its operands and what it leaves besides memory, PATH and STEP_* is the model's choice (log 5). -/
def Obligations.PointPathsEqualSimple : Prop :=
  (∀ (op : ScaleOp) (pl : Planes) (s : State) (p : PathCode),
    p = .down2 ∨ p = .down4 ∨ p = .down34 ∨ (p = .copy ∧ pl.dstW = pl.srcW ∧ dstHeight pl = srcHeight pl) →
    pathRuns p op pl .none s.cfg = true →
    ∃ st mem, exec (pathInstr p op pl .none) s = .next (afterPath p noStep mem s) ∧
      exec (.pSimple op pl .none) s = .next (afterPath .simple st mem s)) ∧
  (∀ (op : ScaleOp) (pl : Planes) (m : FilterMode) (s : State), Memory.wf s.mem = true →
    pathRuns .copy op pl m s.cfg = true → pl.dstW = pl.srcW → dstHeight pl = srcHeight pl →
    ∃ st mem mem', exec (.pCopy op pl m) s = .next (afterPath .copy noStep mem s) ∧
      exec (.pVertical op pl m) s = .next (afterPath .vertical st mem' s) ∧
      ∀ r c : Nat, r < dstHeight pl → c < dstWidth pl →
        dstSample op pl mem' r c = dstSample op pl mem r c)

/-- R153: with BOX_ROUND = nearest, DOWN2 under Bilinear and DOWN4 under Box store what the generic box path stores on
the same planes. How a P operation takes its operands and what it leaves besides memory, PATH and STEP_* is the model's
choice (log 5). -/
def Obligations.BoxPathsEqualFastPaths : Prop :=
  ∀ (op : ScaleOp) (pl : Planes) (s : State), s.cfg.boxRound = .nearest → pathRuns .box op pl .box s.cfg = true →
    (pathRuns .down2 op pl .bilinear s.cfg = true →
      ∃ st mem, exec (.pDown2 op pl .bilinear) s = .next (afterPath .down2 noStep mem s) ∧
        exec (.pBox op pl .box) s = .next (afterPath .box st mem s)) ∧
    (pathRuns .down4 op pl .box s.cfg = true →
      ∃ st mem, exec (.pDown4 op pl .box) s = .next (afterPath .down4 noStep mem s) ∧
        exec (.pBox op pl .box) s = .next (afterPath .box st mem s))

/-- The last row of R153's table: COPY stores what VERTICAL stores at ratio 1, in every mode; and dispatch gives no such
command to VERTICAL (R143). That the call follows R153 and not the max_y of R214, which would cut the last of several
rows, is the model's reading, DEDUCED (log 20). How a P operation takes its operands and what it leaves besides memory,
PATH and STEP_* is the model's choice (log 5). -/
def Obligations.CopyEqualsVerticalAtRatioOne : Prop :=
  ∀ (op : ScaleOp) (pl : Planes) (m : FilterMode) (s : State), pathRuns .copy op pl m s.cfg = true →
    pl.dstW = pl.srcW → dstHeight pl = srcHeight pl →
    (∀ f, (dispatch op pl f).path ≠ .vertical) ∧
    ∃ st mem, exec (.pCopy op pl m) s = .next (afterPath .copy noStep mem s) ∧
      exec (.pVertical op pl m) s = .next (afterPath .vertical st mem s)
end

