-- ==== Sys2Proof/Laws/State.lean ====
section
/-! SUPPORT. The small lemmas of the named state updates: one per field per update, true by rfl, so that no later proof
unfolds a record update. -/

namespace Sys2Proof.Machine

/-! ### clearStatus -/

@[simp] theorem clearStatus_cfg (s : State) : (clearStatus s).cfg = s.cfg := rfl
@[simp] theorem clearStatus_srcBaseLo (s : State) : (clearStatus s).srcBaseLo = s.srcBaseLo := rfl
@[simp] theorem clearStatus_srcBaseHi (s : State) : (clearStatus s).srcBaseHi = s.srcBaseHi := rfl
@[simp] theorem clearStatus_srcStride (s : State) : (clearStatus s).srcStride = s.srcStride := rfl
@[simp] theorem clearStatus_srcW (s : State) : (clearStatus s).srcW = s.srcW := rfl
@[simp] theorem clearStatus_srcH (s : State) : (clearStatus s).srcH = s.srcH := rfl
@[simp] theorem clearStatus_dstBaseLo (s : State) : (clearStatus s).dstBaseLo = s.dstBaseLo := rfl
@[simp] theorem clearStatus_dstBaseHi (s : State) : (clearStatus s).dstBaseHi = s.dstBaseHi := rfl
@[simp] theorem clearStatus_dstStride (s : State) : (clearStatus s).dstStride = s.dstStride := rfl
@[simp] theorem clearStatus_dstW (s : State) : (clearStatus s).dstW = s.dstW := rfl
@[simp] theorem clearStatus_dstH (s : State) : (clearStatus s).dstH = s.dstH := rfl
@[simp] theorem clearStatus_scale (s : State) : (clearStatus s).scale = s.scale := rfl
@[simp] theorem clearStatus_done (s : State) : (clearStatus s).done = false := rfl
@[simp] theorem clearStatus_err (s : State) : (clearStatus s).err = none := rfl
@[simp] theorem clearStatus_path (s : State) : (clearStatus s).path = none := rfl
@[simp] theorem clearStatus_effFilter (s : State) : (clearStatus s).effFilter = .none := rfl
@[simp] theorem clearStatus_stepX (s : State) : (clearStatus s).stepX = 0#32 := rfl
@[simp] theorem clearStatus_stepY (s : State) : (clearStatus s).stepY = 0#32 := rfl
@[simp] theorem clearStatus_stepDX (s : State) : (clearStatus s).stepDX = 0#32 := rfl
@[simp] theorem clearStatus_stepDY (s : State) : (clearStatus s).stepDY = 0#32 := rfl
@[simp] theorem clearStatus_phase (s : State) : (clearStatus s).phase = s.phase := rfl
@[simp] theorem clearStatus_mem (s : State) : (clearStatus s).mem = s.mem := rfl
@[simp] theorem clearStatus_scratchGen (s : State) : (clearStatus s).scratchGen = s.scratchGen := rfl
@[simp] theorem clearStatus_free (s : State) : (clearStatus s).free = s.free := rfl
@[simp] theorem clearStatus_readData (s : State) : (clearStatus s).readData = s.readData := rfl
@[simp] theorem clearStatus_memData (s : State) : (clearStatus s).memData = s.memData := rfl
@[simp] theorem clearStatus_result (s : State) : (clearStatus s).result = s.result := rfl
@[simp] theorem clearStatus_pending (s : State) : (clearStatus s).pending = s.pending := rfl

/-! ### setPath -/

@[simp] theorem setPath_cfg (p : PathCode) (s : State) : (setPath p s).cfg = s.cfg := rfl
@[simp] theorem setPath_srcBaseLo (p : PathCode) (s : State) : (setPath p s).srcBaseLo = s.srcBaseLo := rfl
@[simp] theorem setPath_srcBaseHi (p : PathCode) (s : State) : (setPath p s).srcBaseHi = s.srcBaseHi := rfl
@[simp] theorem setPath_srcStride (p : PathCode) (s : State) : (setPath p s).srcStride = s.srcStride := rfl
@[simp] theorem setPath_srcW (p : PathCode) (s : State) : (setPath p s).srcW = s.srcW := rfl
@[simp] theorem setPath_srcH (p : PathCode) (s : State) : (setPath p s).srcH = s.srcH := rfl
@[simp] theorem setPath_dstBaseLo (p : PathCode) (s : State) : (setPath p s).dstBaseLo = s.dstBaseLo := rfl
@[simp] theorem setPath_dstBaseHi (p : PathCode) (s : State) : (setPath p s).dstBaseHi = s.dstBaseHi := rfl
@[simp] theorem setPath_dstStride (p : PathCode) (s : State) : (setPath p s).dstStride = s.dstStride := rfl
@[simp] theorem setPath_dstW (p : PathCode) (s : State) : (setPath p s).dstW = s.dstW := rfl
@[simp] theorem setPath_dstH (p : PathCode) (s : State) : (setPath p s).dstH = s.dstH := rfl
@[simp] theorem setPath_scale (p : PathCode) (s : State) : (setPath p s).scale = s.scale := rfl
@[simp] theorem setPath_done (p : PathCode) (s : State) : (setPath p s).done = s.done := rfl
@[simp] theorem setPath_err (p : PathCode) (s : State) : (setPath p s).err = s.err := rfl
@[simp] theorem setPath_path (p : PathCode) (s : State) : (setPath p s).path = some p := rfl
@[simp] theorem setPath_effFilter (p : PathCode) (s : State) : (setPath p s).effFilter = s.effFilter := rfl
@[simp] theorem setPath_stepX (p : PathCode) (s : State) : (setPath p s).stepX = s.stepX := rfl
@[simp] theorem setPath_stepY (p : PathCode) (s : State) : (setPath p s).stepY = s.stepY := rfl
@[simp] theorem setPath_stepDX (p : PathCode) (s : State) : (setPath p s).stepDX = s.stepDX := rfl
@[simp] theorem setPath_stepDY (p : PathCode) (s : State) : (setPath p s).stepDY = s.stepDY := rfl
@[simp] theorem setPath_phase (p : PathCode) (s : State) : (setPath p s).phase = s.phase := rfl
@[simp] theorem setPath_mem (p : PathCode) (s : State) : (setPath p s).mem = s.mem := rfl
@[simp] theorem setPath_scratchGen (p : PathCode) (s : State) : (setPath p s).scratchGen = s.scratchGen := rfl
@[simp] theorem setPath_free (p : PathCode) (s : State) : (setPath p s).free = s.free := rfl
@[simp] theorem setPath_readData (p : PathCode) (s : State) : (setPath p s).readData = s.readData := rfl
@[simp] theorem setPath_memData (p : PathCode) (s : State) : (setPath p s).memData = s.memData := rfl
@[simp] theorem setPath_result (p : PathCode) (s : State) : (setPath p s).result = s.result := rfl
@[simp] theorem setPath_pending (p : PathCode) (s : State) : (setPath p s).pending = s.pending := rfl

/-! ### setEffFilter -/

@[simp] theorem setEffFilter_cfg (m : FilterMode) (s : State) : (setEffFilter m s).cfg = s.cfg := rfl
@[simp] theorem setEffFilter_srcBaseLo (m : FilterMode) (s : State) : (setEffFilter m s).srcBaseLo = s.srcBaseLo := rfl
@[simp] theorem setEffFilter_srcBaseHi (m : FilterMode) (s : State) : (setEffFilter m s).srcBaseHi = s.srcBaseHi := rfl
@[simp] theorem setEffFilter_srcStride (m : FilterMode) (s : State) : (setEffFilter m s).srcStride = s.srcStride := rfl
@[simp] theorem setEffFilter_srcW (m : FilterMode) (s : State) : (setEffFilter m s).srcW = s.srcW := rfl
@[simp] theorem setEffFilter_srcH (m : FilterMode) (s : State) : (setEffFilter m s).srcH = s.srcH := rfl
@[simp] theorem setEffFilter_dstBaseLo (m : FilterMode) (s : State) : (setEffFilter m s).dstBaseLo = s.dstBaseLo := rfl
@[simp] theorem setEffFilter_dstBaseHi (m : FilterMode) (s : State) : (setEffFilter m s).dstBaseHi = s.dstBaseHi := rfl
@[simp] theorem setEffFilter_dstStride (m : FilterMode) (s : State) : (setEffFilter m s).dstStride = s.dstStride := rfl
@[simp] theorem setEffFilter_dstW (m : FilterMode) (s : State) : (setEffFilter m s).dstW = s.dstW := rfl
@[simp] theorem setEffFilter_dstH (m : FilterMode) (s : State) : (setEffFilter m s).dstH = s.dstH := rfl
@[simp] theorem setEffFilter_scale (m : FilterMode) (s : State) : (setEffFilter m s).scale = s.scale := rfl
@[simp] theorem setEffFilter_done (m : FilterMode) (s : State) : (setEffFilter m s).done = s.done := rfl
@[simp] theorem setEffFilter_err (m : FilterMode) (s : State) : (setEffFilter m s).err = s.err := rfl
@[simp] theorem setEffFilter_path (m : FilterMode) (s : State) : (setEffFilter m s).path = s.path := rfl
@[simp] theorem setEffFilter_effFilter (m : FilterMode) (s : State) : (setEffFilter m s).effFilter = m := rfl
@[simp] theorem setEffFilter_stepX (m : FilterMode) (s : State) : (setEffFilter m s).stepX = s.stepX := rfl
@[simp] theorem setEffFilter_stepY (m : FilterMode) (s : State) : (setEffFilter m s).stepY = s.stepY := rfl
@[simp] theorem setEffFilter_stepDX (m : FilterMode) (s : State) : (setEffFilter m s).stepDX = s.stepDX := rfl
@[simp] theorem setEffFilter_stepDY (m : FilterMode) (s : State) : (setEffFilter m s).stepDY = s.stepDY := rfl
@[simp] theorem setEffFilter_phase (m : FilterMode) (s : State) : (setEffFilter m s).phase = s.phase := rfl
@[simp] theorem setEffFilter_mem (m : FilterMode) (s : State) : (setEffFilter m s).mem = s.mem := rfl
@[simp] theorem setEffFilter_scratchGen (m : FilterMode) (s : State) : (setEffFilter m s).scratchGen = s.scratchGen := rfl
@[simp] theorem setEffFilter_free (m : FilterMode) (s : State) : (setEffFilter m s).free = s.free := rfl
@[simp] theorem setEffFilter_readData (m : FilterMode) (s : State) : (setEffFilter m s).readData = s.readData := rfl
@[simp] theorem setEffFilter_memData (m : FilterMode) (s : State) : (setEffFilter m s).memData = s.memData := rfl
@[simp] theorem setEffFilter_result (m : FilterMode) (s : State) : (setEffFilter m s).result = s.result := rfl
@[simp] theorem setEffFilter_pending (m : FilterMode) (s : State) : (setEffFilter m s).pending = s.pending := rfl

/-! ### setStep -/

@[simp] theorem setStep_cfg (st : ScaleStep) (s : State) : (setStep st s).cfg = s.cfg := rfl
@[simp] theorem setStep_srcBaseLo (st : ScaleStep) (s : State) : (setStep st s).srcBaseLo = s.srcBaseLo := rfl
@[simp] theorem setStep_srcBaseHi (st : ScaleStep) (s : State) : (setStep st s).srcBaseHi = s.srcBaseHi := rfl
@[simp] theorem setStep_srcStride (st : ScaleStep) (s : State) : (setStep st s).srcStride = s.srcStride := rfl
@[simp] theorem setStep_srcW (st : ScaleStep) (s : State) : (setStep st s).srcW = s.srcW := rfl
@[simp] theorem setStep_srcH (st : ScaleStep) (s : State) : (setStep st s).srcH = s.srcH := rfl
@[simp] theorem setStep_dstBaseLo (st : ScaleStep) (s : State) : (setStep st s).dstBaseLo = s.dstBaseLo := rfl
@[simp] theorem setStep_dstBaseHi (st : ScaleStep) (s : State) : (setStep st s).dstBaseHi = s.dstBaseHi := rfl
@[simp] theorem setStep_dstStride (st : ScaleStep) (s : State) : (setStep st s).dstStride = s.dstStride := rfl
@[simp] theorem setStep_dstW (st : ScaleStep) (s : State) : (setStep st s).dstW = s.dstW := rfl
@[simp] theorem setStep_dstH (st : ScaleStep) (s : State) : (setStep st s).dstH = s.dstH := rfl
@[simp] theorem setStep_scale (st : ScaleStep) (s : State) : (setStep st s).scale = s.scale := rfl
@[simp] theorem setStep_done (st : ScaleStep) (s : State) : (setStep st s).done = s.done := rfl
@[simp] theorem setStep_err (st : ScaleStep) (s : State) : (setStep st s).err = s.err := rfl
@[simp] theorem setStep_path (st : ScaleStep) (s : State) : (setStep st s).path = s.path := rfl
@[simp] theorem setStep_effFilter (st : ScaleStep) (s : State) : (setStep st s).effFilter = s.effFilter := rfl
@[simp] theorem setStep_stepX (st : ScaleStep) (s : State) : (setStep st s).stepX = BitVec.ofInt 32 st.x := rfl
@[simp] theorem setStep_stepY (st : ScaleStep) (s : State) : (setStep st s).stepY = BitVec.ofInt 32 st.y := rfl
@[simp] theorem setStep_stepDX (st : ScaleStep) (s : State) : (setStep st s).stepDX = BitVec.ofInt 32 st.dx := rfl
@[simp] theorem setStep_stepDY (st : ScaleStep) (s : State) : (setStep st s).stepDY = BitVec.ofInt 32 st.dy := rfl
@[simp] theorem setStep_phase (st : ScaleStep) (s : State) : (setStep st s).phase = s.phase := rfl
@[simp] theorem setStep_mem (st : ScaleStep) (s : State) : (setStep st s).mem = s.mem := rfl
@[simp] theorem setStep_scratchGen (st : ScaleStep) (s : State) : (setStep st s).scratchGen = s.scratchGen := rfl
@[simp] theorem setStep_free (st : ScaleStep) (s : State) : (setStep st s).free = s.free := rfl
@[simp] theorem setStep_readData (st : ScaleStep) (s : State) : (setStep st s).readData = s.readData := rfl
@[simp] theorem setStep_memData (st : ScaleStep) (s : State) : (setStep st s).memData = s.memData := rfl
@[simp] theorem setStep_result (st : ScaleStep) (s : State) : (setStep st s).result = s.result := rfl
@[simp] theorem setStep_pending (st : ScaleStep) (s : State) : (setStep st s).pending = s.pending := rfl

/-! ### setResult -/

@[simp] theorem setResult_cfg (r : OpResult) (s : State) : (setResult r s).cfg = s.cfg := rfl
@[simp] theorem setResult_srcBaseLo (r : OpResult) (s : State) : (setResult r s).srcBaseLo = s.srcBaseLo := rfl
@[simp] theorem setResult_srcBaseHi (r : OpResult) (s : State) : (setResult r s).srcBaseHi = s.srcBaseHi := rfl
@[simp] theorem setResult_srcStride (r : OpResult) (s : State) : (setResult r s).srcStride = s.srcStride := rfl
@[simp] theorem setResult_srcW (r : OpResult) (s : State) : (setResult r s).srcW = s.srcW := rfl
@[simp] theorem setResult_srcH (r : OpResult) (s : State) : (setResult r s).srcH = s.srcH := rfl
@[simp] theorem setResult_dstBaseLo (r : OpResult) (s : State) : (setResult r s).dstBaseLo = s.dstBaseLo := rfl
@[simp] theorem setResult_dstBaseHi (r : OpResult) (s : State) : (setResult r s).dstBaseHi = s.dstBaseHi := rfl
@[simp] theorem setResult_dstStride (r : OpResult) (s : State) : (setResult r s).dstStride = s.dstStride := rfl
@[simp] theorem setResult_dstW (r : OpResult) (s : State) : (setResult r s).dstW = s.dstW := rfl
@[simp] theorem setResult_dstH (r : OpResult) (s : State) : (setResult r s).dstH = s.dstH := rfl
@[simp] theorem setResult_scale (r : OpResult) (s : State) : (setResult r s).scale = s.scale := rfl
@[simp] theorem setResult_done (r : OpResult) (s : State) : (setResult r s).done = s.done := rfl
@[simp] theorem setResult_err (r : OpResult) (s : State) : (setResult r s).err = s.err := rfl
@[simp] theorem setResult_path (r : OpResult) (s : State) : (setResult r s).path = s.path := rfl
@[simp] theorem setResult_effFilter (r : OpResult) (s : State) : (setResult r s).effFilter = s.effFilter := rfl
@[simp] theorem setResult_stepX (r : OpResult) (s : State) : (setResult r s).stepX = s.stepX := rfl
@[simp] theorem setResult_stepY (r : OpResult) (s : State) : (setResult r s).stepY = s.stepY := rfl
@[simp] theorem setResult_stepDX (r : OpResult) (s : State) : (setResult r s).stepDX = s.stepDX := rfl
@[simp] theorem setResult_stepDY (r : OpResult) (s : State) : (setResult r s).stepDY = s.stepDY := rfl
@[simp] theorem setResult_phase (r : OpResult) (s : State) : (setResult r s).phase = s.phase := rfl
@[simp] theorem setResult_mem (r : OpResult) (s : State) : (setResult r s).mem = s.mem := rfl
@[simp] theorem setResult_scratchGen (r : OpResult) (s : State) : (setResult r s).scratchGen = s.scratchGen := rfl
@[simp] theorem setResult_free (r : OpResult) (s : State) : (setResult r s).free = s.free := rfl
@[simp] theorem setResult_readData (r : OpResult) (s : State) : (setResult r s).readData = s.readData := rfl
@[simp] theorem setResult_memData (r : OpResult) (s : State) : (setResult r s).memData = s.memData := rfl
@[simp] theorem setResult_result (r : OpResult) (s : State) : (setResult r s).result = r := rfl
@[simp] theorem setResult_pending (r : OpResult) (s : State) : (setResult r s).pending = s.pending := rfl

/-! ### scramble -/

@[simp] theorem scramble_cfg (l : List Nat) (s : State) : (scramble l s).cfg = s.cfg := rfl
@[simp] theorem scramble_srcBaseLo (l : List Nat) (s : State) : (scramble l s).srcBaseLo = s.srcBaseLo := rfl
@[simp] theorem scramble_srcBaseHi (l : List Nat) (s : State) : (scramble l s).srcBaseHi = s.srcBaseHi := rfl
@[simp] theorem scramble_srcStride (l : List Nat) (s : State) : (scramble l s).srcStride = s.srcStride := rfl
@[simp] theorem scramble_srcW (l : List Nat) (s : State) : (scramble l s).srcW = s.srcW := rfl
@[simp] theorem scramble_srcH (l : List Nat) (s : State) : (scramble l s).srcH = s.srcH := rfl
@[simp] theorem scramble_dstBaseLo (l : List Nat) (s : State) : (scramble l s).dstBaseLo = s.dstBaseLo := rfl
@[simp] theorem scramble_dstBaseHi (l : List Nat) (s : State) : (scramble l s).dstBaseHi = s.dstBaseHi := rfl
@[simp] theorem scramble_dstStride (l : List Nat) (s : State) : (scramble l s).dstStride = s.dstStride := rfl
@[simp] theorem scramble_dstW (l : List Nat) (s : State) : (scramble l s).dstW = s.dstW := rfl
@[simp] theorem scramble_dstH (l : List Nat) (s : State) : (scramble l s).dstH = s.dstH := rfl
@[simp] theorem scramble_scale (l : List Nat) (s : State) : (scramble l s).scale = s.scale := rfl
@[simp] theorem scramble_done (l : List Nat) (s : State) : (scramble l s).done = s.done := rfl
@[simp] theorem scramble_err (l : List Nat) (s : State) : (scramble l s).err = s.err := rfl
@[simp] theorem scramble_path (l : List Nat) (s : State) : (scramble l s).path = s.path := rfl
@[simp] theorem scramble_effFilter (l : List Nat) (s : State) : (scramble l s).effFilter = s.effFilter := rfl
@[simp] theorem scramble_stepX (l : List Nat) (s : State) : (scramble l s).stepX = s.stepX := rfl
@[simp] theorem scramble_stepY (l : List Nat) (s : State) : (scramble l s).stepY = s.stepY := rfl
@[simp] theorem scramble_stepDX (l : List Nat) (s : State) : (scramble l s).stepDX = s.stepDX := rfl
@[simp] theorem scramble_stepDY (l : List Nat) (s : State) : (scramble l s).stepDY = s.stepDY := rfl
@[simp] theorem scramble_phase (l : List Nat) (s : State) : (scramble l s).phase = s.phase := rfl
@[simp] theorem scramble_mem (l : List Nat) (s : State) : (scramble l s).mem = l.foldl (fun m a => Memory.write m a (Config.freeByte s.free a)) s.mem := rfl
@[simp] theorem scramble_scratchGen (l : List Nat) (s : State) : (scramble l s).scratchGen = s.scratchGen := rfl
@[simp] theorem scramble_free (l : List Nat) (s : State) : (scramble l s).free = s.free + 1 := rfl
@[simp] theorem scramble_readData (l : List Nat) (s : State) : (scramble l s).readData = s.readData := rfl
@[simp] theorem scramble_memData (l : List Nat) (s : State) : (scramble l s).memData = s.memData := rfl
@[simp] theorem scramble_result (l : List Nat) (s : State) : (scramble l s).result = s.result := rfl
@[simp] theorem scramble_pending (l : List Nat) (s : State) : (scramble l s).pending = s.pending := rfl

/-! ### startCommand -/

@[simp] theorem startCommand_cfg (w : Word) (s : State) : (startCommand w s).cfg = s.cfg := rfl
@[simp] theorem startCommand_srcBaseLo (w : Word) (s : State) : (startCommand w s).srcBaseLo = s.srcBaseLo := rfl
@[simp] theorem startCommand_srcBaseHi (w : Word) (s : State) : (startCommand w s).srcBaseHi = s.srcBaseHi := rfl
@[simp] theorem startCommand_srcStride (w : Word) (s : State) : (startCommand w s).srcStride = s.srcStride := rfl
@[simp] theorem startCommand_srcW (w : Word) (s : State) : (startCommand w s).srcW = s.srcW := rfl
@[simp] theorem startCommand_srcH (w : Word) (s : State) : (startCommand w s).srcH = s.srcH := rfl
@[simp] theorem startCommand_dstBaseLo (w : Word) (s : State) : (startCommand w s).dstBaseLo = s.dstBaseLo := rfl
@[simp] theorem startCommand_dstBaseHi (w : Word) (s : State) : (startCommand w s).dstBaseHi = s.dstBaseHi := rfl
@[simp] theorem startCommand_dstStride (w : Word) (s : State) : (startCommand w s).dstStride = s.dstStride := rfl
@[simp] theorem startCommand_dstW (w : Word) (s : State) : (startCommand w s).dstW = s.dstW := rfl
@[simp] theorem startCommand_dstH (w : Word) (s : State) : (startCommand w s).dstH = s.dstH := rfl
@[simp] theorem startCommand_scale (w : Word) (s : State) : (startCommand w s).scale = s.scale := rfl
@[simp] theorem startCommand_done (w : Word) (s : State) : (startCommand w s).done = false := rfl
@[simp] theorem startCommand_err (w : Word) (s : State) : (startCommand w s).err = none := rfl
@[simp] theorem startCommand_path (w : Word) (s : State) : (startCommand w s).path = none := rfl
@[simp] theorem startCommand_effFilter (w : Word) (s : State) : (startCommand w s).effFilter = .none := rfl
@[simp] theorem startCommand_stepX (w : Word) (s : State) : (startCommand w s).stepX = 0#32 := rfl
@[simp] theorem startCommand_stepY (w : Word) (s : State) : (startCommand w s).stepY = 0#32 := rfl
@[simp] theorem startCommand_stepDX (w : Word) (s : State) : (startCommand w s).stepDX = 0#32 := rfl
@[simp] theorem startCommand_stepDY (w : Word) (s : State) : (startCommand w s).stepDY = 0#32 := rfl
@[simp] theorem startCommand_phase (w : Word) (s : State) : (startCommand w s).phase = .busy (latch w s) false := rfl
@[simp] theorem startCommand_mem (w : Word) (s : State) : (startCommand w s).mem = s.mem := rfl
@[simp] theorem startCommand_scratchGen (w : Word) (s : State) : (startCommand w s).scratchGen = s.scratchGen := rfl
@[simp] theorem startCommand_free (w : Word) (s : State) : (startCommand w s).free = s.free := rfl
@[simp] theorem startCommand_readData (w : Word) (s : State) : (startCommand w s).readData = s.readData := rfl
@[simp] theorem startCommand_memData (w : Word) (s : State) : (startCommand w s).memData = s.memData := rfl
@[simp] theorem startCommand_result (w : Word) (s : State) : (startCommand w s).result = s.result := rfl
@[simp] theorem startCommand_pending (w : Word) (s : State) : (startCommand w s).pending = s.pending := rfl

/-! ### scrambleLatched, endCommand and disturb: the fields they leave alone, and those they set -/

@[simp] theorem scrambleLatched_cfg (c : Latched) (s : State) : (scrambleLatched c s).cfg = s.cfg := by
  unfold scrambleLatched; split <;> rfl
@[simp] theorem scrambleLatched_srcBaseLo (c : Latched) (s : State) : (scrambleLatched c s).srcBaseLo = s.srcBaseLo := by
  unfold scrambleLatched; split <;> rfl
@[simp] theorem scrambleLatched_srcBaseHi (c : Latched) (s : State) : (scrambleLatched c s).srcBaseHi = s.srcBaseHi := by
  unfold scrambleLatched; split <;> rfl
@[simp] theorem scrambleLatched_srcStride (c : Latched) (s : State) : (scrambleLatched c s).srcStride = s.srcStride := by
  unfold scrambleLatched; split <;> rfl
@[simp] theorem scrambleLatched_srcW (c : Latched) (s : State) : (scrambleLatched c s).srcW = s.srcW := by
  unfold scrambleLatched; split <;> rfl
@[simp] theorem scrambleLatched_srcH (c : Latched) (s : State) : (scrambleLatched c s).srcH = s.srcH := by
  unfold scrambleLatched; split <;> rfl
@[simp] theorem scrambleLatched_dstBaseLo (c : Latched) (s : State) : (scrambleLatched c s).dstBaseLo = s.dstBaseLo := by
  unfold scrambleLatched; split <;> rfl
@[simp] theorem scrambleLatched_dstBaseHi (c : Latched) (s : State) : (scrambleLatched c s).dstBaseHi = s.dstBaseHi := by
  unfold scrambleLatched; split <;> rfl
@[simp] theorem scrambleLatched_dstStride (c : Latched) (s : State) : (scrambleLatched c s).dstStride = s.dstStride := by
  unfold scrambleLatched; split <;> rfl
@[simp] theorem scrambleLatched_dstW (c : Latched) (s : State) : (scrambleLatched c s).dstW = s.dstW := by
  unfold scrambleLatched; split <;> rfl
@[simp] theorem scrambleLatched_dstH (c : Latched) (s : State) : (scrambleLatched c s).dstH = s.dstH := by
  unfold scrambleLatched; split <;> rfl
@[simp] theorem scrambleLatched_scale (c : Latched) (s : State) : (scrambleLatched c s).scale = s.scale := by
  unfold scrambleLatched; split <;> rfl
@[simp] theorem scrambleLatched_done (c : Latched) (s : State) : (scrambleLatched c s).done = s.done := by
  unfold scrambleLatched; split <;> rfl
@[simp] theorem scrambleLatched_err (c : Latched) (s : State) : (scrambleLatched c s).err = s.err := by
  unfold scrambleLatched; split <;> rfl
@[simp] theorem scrambleLatched_path (c : Latched) (s : State) : (scrambleLatched c s).path = s.path := by
  unfold scrambleLatched; split <;> rfl
@[simp] theorem scrambleLatched_effFilter (c : Latched) (s : State) : (scrambleLatched c s).effFilter = s.effFilter := by
  unfold scrambleLatched; split <;> rfl
@[simp] theorem scrambleLatched_stepX (c : Latched) (s : State) : (scrambleLatched c s).stepX = s.stepX := by
  unfold scrambleLatched; split <;> rfl
@[simp] theorem scrambleLatched_stepY (c : Latched) (s : State) : (scrambleLatched c s).stepY = s.stepY := by
  unfold scrambleLatched; split <;> rfl
@[simp] theorem scrambleLatched_stepDX (c : Latched) (s : State) : (scrambleLatched c s).stepDX = s.stepDX := by
  unfold scrambleLatched; split <;> rfl
@[simp] theorem scrambleLatched_stepDY (c : Latched) (s : State) : (scrambleLatched c s).stepDY = s.stepDY := by
  unfold scrambleLatched; split <;> rfl
@[simp] theorem scrambleLatched_phase (c : Latched) (s : State) : (scrambleLatched c s).phase = s.phase := by
  unfold scrambleLatched; split <;> rfl
@[simp] theorem scrambleLatched_scratchGen (c : Latched) (s : State) : (scrambleLatched c s).scratchGen = s.scratchGen := by
  unfold scrambleLatched; split <;> rfl
@[simp] theorem scrambleLatched_readData (c : Latched) (s : State) : (scrambleLatched c s).readData = s.readData := by
  unfold scrambleLatched; split <;> rfl
@[simp] theorem scrambleLatched_memData (c : Latched) (s : State) : (scrambleLatched c s).memData = s.memData := by
  unfold scrambleLatched; split <;> rfl
@[simp] theorem scrambleLatched_result (c : Latched) (s : State) : (scrambleLatched c s).result = s.result := by
  unfold scrambleLatched; split <;> rfl
@[simp] theorem scrambleLatched_pending (c : Latched) (s : State) : (scrambleLatched c s).pending = s.pending := by
  unfold scrambleLatched; split <;> rfl

@[simp] theorem endCommand_cfg (e : Option Err) (s : State) : (endCommand e s).cfg = s.cfg := by
  unfold endCommand; split <;> simp
@[simp] theorem endCommand_srcBaseLo (e : Option Err) (s : State) : (endCommand e s).srcBaseLo = s.srcBaseLo := by
  unfold endCommand; split <;> simp
@[simp] theorem endCommand_srcBaseHi (e : Option Err) (s : State) : (endCommand e s).srcBaseHi = s.srcBaseHi := by
  unfold endCommand; split <;> simp
@[simp] theorem endCommand_srcStride (e : Option Err) (s : State) : (endCommand e s).srcStride = s.srcStride := by
  unfold endCommand; split <;> simp
@[simp] theorem endCommand_srcW (e : Option Err) (s : State) : (endCommand e s).srcW = s.srcW := by
  unfold endCommand; split <;> simp
@[simp] theorem endCommand_srcH (e : Option Err) (s : State) : (endCommand e s).srcH = s.srcH := by
  unfold endCommand; split <;> simp
@[simp] theorem endCommand_dstBaseLo (e : Option Err) (s : State) : (endCommand e s).dstBaseLo = s.dstBaseLo := by
  unfold endCommand; split <;> simp
@[simp] theorem endCommand_dstBaseHi (e : Option Err) (s : State) : (endCommand e s).dstBaseHi = s.dstBaseHi := by
  unfold endCommand; split <;> simp
@[simp] theorem endCommand_dstStride (e : Option Err) (s : State) : (endCommand e s).dstStride = s.dstStride := by
  unfold endCommand; split <;> simp
@[simp] theorem endCommand_dstW (e : Option Err) (s : State) : (endCommand e s).dstW = s.dstW := by
  unfold endCommand; split <;> simp
@[simp] theorem endCommand_dstH (e : Option Err) (s : State) : (endCommand e s).dstH = s.dstH := by
  unfold endCommand; split <;> simp
@[simp] theorem endCommand_scale (e : Option Err) (s : State) : (endCommand e s).scale = s.scale := by
  unfold endCommand; split <;> simp
@[simp] theorem endCommand_done (e : Option Err) (s : State) : (endCommand e s).done = true := rfl
@[simp] theorem endCommand_err (e : Option Err) (s : State) : (endCommand e s).err = e := rfl
@[simp] theorem endCommand_path (e : Option Err) (s : State) : (endCommand e s).path = s.path := by
  unfold endCommand; split <;> simp
@[simp] theorem endCommand_effFilter (e : Option Err) (s : State) : (endCommand e s).effFilter = s.effFilter := by
  unfold endCommand; split <;> simp
@[simp] theorem endCommand_stepX (e : Option Err) (s : State) : (endCommand e s).stepX = s.stepX := by
  unfold endCommand; split <;> simp
@[simp] theorem endCommand_stepY (e : Option Err) (s : State) : (endCommand e s).stepY = s.stepY := by
  unfold endCommand; split <;> simp
@[simp] theorem endCommand_stepDX (e : Option Err) (s : State) : (endCommand e s).stepDX = s.stepDX := by
  unfold endCommand; split <;> simp
@[simp] theorem endCommand_stepDY (e : Option Err) (s : State) : (endCommand e s).stepDY = s.stepDY := by
  unfold endCommand; split <;> simp
@[simp] theorem endCommand_phase (e : Option Err) (s : State) : (endCommand e s).phase = .idle := rfl
@[simp] theorem endCommand_scratchGen (e : Option Err) (s : State) : (endCommand e s).scratchGen = s.scratchGen + 1 := by
  unfold endCommand; split <;> simp
@[simp] theorem endCommand_readData (e : Option Err) (s : State) : (endCommand e s).readData = s.readData := by
  unfold endCommand; split <;> simp
@[simp] theorem endCommand_memData (e : Option Err) (s : State) : (endCommand e s).memData = s.memData := by
  unfold endCommand; split <;> simp
@[simp] theorem endCommand_result (e : Option Err) (s : State) : (endCommand e s).result = s.result := by
  unfold endCommand; split <;> simp
@[simp] theorem endCommand_pending (e : Option Err) (s : State) : (endCommand e s).pending = s.pending := by
  unfold endCommand; split <;> simp

@[simp] theorem disturb_cfg (s : State) : (disturb s).cfg = s.cfg := by
  unfold disturb; split <;> rfl
@[simp] theorem disturb_srcBaseLo (s : State) : (disturb s).srcBaseLo = s.srcBaseLo := by
  unfold disturb; split <;> rfl
@[simp] theorem disturb_srcBaseHi (s : State) : (disturb s).srcBaseHi = s.srcBaseHi := by
  unfold disturb; split <;> rfl
@[simp] theorem disturb_srcStride (s : State) : (disturb s).srcStride = s.srcStride := by
  unfold disturb; split <;> rfl
@[simp] theorem disturb_srcW (s : State) : (disturb s).srcW = s.srcW := by
  unfold disturb; split <;> rfl
@[simp] theorem disturb_srcH (s : State) : (disturb s).srcH = s.srcH := by
  unfold disturb; split <;> rfl
@[simp] theorem disturb_dstBaseLo (s : State) : (disturb s).dstBaseLo = s.dstBaseLo := by
  unfold disturb; split <;> rfl
@[simp] theorem disturb_dstBaseHi (s : State) : (disturb s).dstBaseHi = s.dstBaseHi := by
  unfold disturb; split <;> rfl
@[simp] theorem disturb_dstStride (s : State) : (disturb s).dstStride = s.dstStride := by
  unfold disturb; split <;> rfl
@[simp] theorem disturb_dstW (s : State) : (disturb s).dstW = s.dstW := by
  unfold disturb; split <;> rfl
@[simp] theorem disturb_dstH (s : State) : (disturb s).dstH = s.dstH := by
  unfold disturb; split <;> rfl
@[simp] theorem disturb_scale (s : State) : (disturb s).scale = s.scale := by
  unfold disturb; split <;> rfl
@[simp] theorem disturb_done (s : State) : (disturb s).done = s.done := by
  unfold disturb; split <;> rfl
@[simp] theorem disturb_err (s : State) : (disturb s).err = s.err := by
  unfold disturb; split <;> rfl
@[simp] theorem disturb_path (s : State) : (disturb s).path = s.path := by
  unfold disturb; split <;> rfl
@[simp] theorem disturb_effFilter (s : State) : (disturb s).effFilter = s.effFilter := by
  unfold disturb; split <;> rfl
@[simp] theorem disturb_stepX (s : State) : (disturb s).stepX = s.stepX := by
  unfold disturb; split <;> rfl
@[simp] theorem disturb_stepY (s : State) : (disturb s).stepY = s.stepY := by
  unfold disturb; split <;> rfl
@[simp] theorem disturb_stepDX (s : State) : (disturb s).stepDX = s.stepDX := by
  unfold disturb; split <;> rfl
@[simp] theorem disturb_stepDY (s : State) : (disturb s).stepDY = s.stepDY := by
  unfold disturb; split <;> rfl
@[simp] theorem disturb_mem (s : State) : (disturb s).mem = s.mem := by
  unfold disturb; split <;> rfl
@[simp] theorem disturb_scratchGen (s : State) : (disturb s).scratchGen = s.scratchGen := by
  unfold disturb; split <;> rfl
@[simp] theorem disturb_free (s : State) : (disturb s).free = s.free := by
  unfold disturb; split <;> rfl
@[simp] theorem disturb_readData (s : State) : (disturb s).readData = s.readData := by
  unfold disturb; split <;> rfl
@[simp] theorem disturb_memData (s : State) : (disturb s).memData = s.memData := by
  unfold disturb; split <;> rfl
@[simp] theorem disturb_result (s : State) : (disturb s).result = s.result := by
  unfold disturb; split <;> rfl
@[simp] theorem disturb_pending (s : State) : (disturb s).pending = s.pending := by
  unfold disturb; split <;> rfl

/-! ### The views of the state -/

theorem isBusy_idle {s : State} (h : s.phase = .idle) : isBusy s = false := by simp [isBusy, h]

theorem isBusy_busy {s : State} {c : Latched} {d : Bool} (h : s.phase = .busy c d) : isBusy s = true := by
  simp [isBusy, h]

@[simp] theorem isBusy_endCommand (e : Option Err) (s : State) : isBusy (endCommand e s) = false := rfl

@[simp] theorem isBusy_startCommand (w : Word) (s : State) : isBusy (startCommand w s) = true := rfl

theorem commandPlanes_busy {s : State} {c : Latched} {d : Bool} (h : s.phase = .busy c d) :
    commandPlanes s = c.planes := by simp [commandPlanes, h]

theorem commandPlanes_idle {s : State} (h : s.phase = .idle) : commandPlanes s = registerPlanes s := by
  simp [commandPlanes, h]

@[simp] theorem commandPlanes_startCommand (w : Word) (s : State) :
    commandPlanes (startCommand w s) = registerPlanes s := rfl

/-- Without a disturbed running command, ending a command touches no memory. -/
@[simp] theorem endCommand_mem_idle (e : Option Err) (s : State) (h : s.phase = .idle) :
    (endCommand e s).mem = s.mem := by simp [endCommand, h]

theorem endCommand_mem_undisturbed (e : Option Err) (s : State) (c : Latched) (h : s.phase = .busy c false) :
    (endCommand e s).mem = s.mem := by simp [endCommand, h]

theorem endCommand_mem_disturbed (e : Option Err) (s : State) (c : Latched) (h : s.phase = .busy c true) :
    (endCommand e s).mem = (scrambleLatched c s).mem := by simp [endCommand, h]

end Sys2Proof.Machine
end

