-- ==== Sys2Proof/Laws/Memory.lean ====
section
/-! SUPPORT. Host memory: every operation keeps the canonical form, a read after a write gives the written byte, and a write
leaves every other byte alone. -/

namespace Sys2Proof.Machine

/-! ### The canonical form -/

theorem wfFrom_cons (lo k : Nat) (b : Byte) (rest : Memory) :
    Memory.wfFrom lo ((k, b) :: rest) = true ↔
      lo ≤ k ∧ k < 2 ^ 64 ∧ b ≠ unlistedByte ∧ Memory.wfFrom (k + 1) rest = true := by
  simp [Memory.wfFrom, and_assoc]

theorem wfFrom_mono {lo lo' : Nat} {m : Memory} (hle : lo' ≤ lo) (h : Memory.wfFrom lo m = true) :
    Memory.wfFrom lo' m = true := by
  cases m with
  | nil => rfl
  | cons kb rest =>
    obtain ⟨k, b⟩ := kb
    rw [wfFrom_cons] at h ⊢
    exact ⟨by omega, h.2⟩

theorem wfFrom_erase (m : Memory) (a lo : Nat) (h : Memory.wfFrom lo m = true) :
    Memory.wfFrom lo (Memory.erase m a) = true := by
  induction m generalizing lo with
  | nil => rfl
  | cons kb rest ih =>
    obtain ⟨k, b⟩ := kb
    rw [wfFrom_cons] at h
    unfold Memory.erase
    split
    · exact wfFrom_mono (by omega) h.2.2.2
    · rw [wfFrom_cons]
      exact ⟨h.1, h.2.1, h.2.2.1, ih _ h.2.2.2⟩

theorem wfFrom_insert (m : Memory) (a lo : Nat) (v : Byte) (hlo : lo ≤ a) (ha : a < 2 ^ 64) (hv : v ≠ unlistedByte)
    (h : Memory.wfFrom lo m = true) : Memory.wfFrom lo (Memory.insert m a v) = true := by
  induction m generalizing lo with
  | nil => simpa [Memory.insert, Memory.wfFrom] using ⟨⟨hlo, ha⟩, hv⟩
  | cons kb rest ih =>
    obtain ⟨k, b⟩ := kb
    rw [wfFrom_cons] at h
    obtain ⟨h1, h2, h3, h4⟩ := h
    unfold Memory.insert
    split
    · rw [wfFrom_cons, wfFrom_cons]
      exact ⟨hlo, ha, hv, by omega, h2, h3, h4⟩
    · split
      · subst_vars
        rw [wfFrom_cons]
        exact ⟨hlo, ha, hv, h4⟩
      · rw [wfFrom_cons]
        exact ⟨h1, h2, h3, ih _ (by omega) h4⟩

/-- A byte write keeps the canonical form. -/
theorem wf_write (m : Memory) (a : Nat) (v : Byte) (h : Memory.wf m = true) : Memory.wf (Memory.write m a v) = true := by
  unfold Memory.write
  split
  · split
    · exact wfFrom_erase m a 0 h
    · exact wfFrom_insert m a 0 v (by omega) ‹_› ‹_› h
  · exact h

/-- A sample write keeps the canonical form. -/
theorem wf_storeSample (m : Memory) (a n v : Nat) (h : Memory.wf m = true) :
    Memory.wf (storeSample m a n v) = true := by
  unfold storeSample
  split
  · exact wf_write _ _ _ h
  · exact wf_write _ _ _ (wf_write _ _ _ h)

/-- Writing free values keeps the canonical form. -/
theorem wf_foldl_write (l : List Nat) (g : Nat → Byte) (m : Memory) (h : Memory.wf m = true) :
    Memory.wf (l.foldl (fun m a => Memory.write m a (g a)) m) = true := by
  induction l generalizing m with
  | nil => exact h
  | cons a rest ih => exact ih _ (wf_write _ _ _ h)

theorem wf_scramble (l : List Nat) (s : State) (h : Memory.wf s.mem = true) :
    Memory.wf (scramble l s).mem = true := wf_foldl_write l _ _ h

theorem wf_scrambleDst (op : ScaleOp) (pl : Planes) (s : State) (h : Memory.wf s.mem = true) :
    Memory.wf (scrambleDst op pl s).mem = true := wf_scramble _ _ h

theorem wf_scrambleLatched (c : Latched) (s : State) (h : Memory.wf s.mem = true) :
    Memory.wf (scrambleLatched c s).mem = true := by
  unfold scrambleLatched
  split
  · exact wf_scrambleDst _ _ _ h
  · exact h

theorem wf_endCommand (e : Option Err) (s : State) (h : Memory.wf s.mem = true) :
    Memory.wf (endCommand e s).mem = true := by
  unfold endCommand
  dsimp only
  split
  · exact wf_scrambleLatched _ _ h
  · exact h

theorem wf_resetInput (s : State) (h : Memory.wf s.mem = true) : Memory.wf (resetInput s).mem = true := by
  unfold resetInput
  dsimp only [clearStatus]
  split
  · exact wf_scrambleLatched _ _ h
  · exact h

theorem wf_storeRow (op : ScaleOp) (pl : Planes) (r c : Nat) (d : Row) (m : Memory) (h : Memory.wf m = true) :
    Memory.wf (storeRow op pl r c d m) = true := by
  induction d generalizing c m with
  | nil => exact h
  | cons v rest ih => exact ih _ _ (wf_storeSample _ _ _ _ h)

theorem wf_storeRows (op : ScaleOp) (pl : Planes) (w : RowWrites) (m : Memory) (h : Memory.wf m = true) :
    Memory.wf (storeRows op pl w m) = true := by
  induction w generalizing m with
  | nil => exact h
  | cons rd rest ih => exact ih _ (wf_storeRow _ _ _ _ _ _ h)

/-- Reset's memory lists nothing, so it is canonical. -/
theorem wf_reset : Memory.wf State.reset.mem = true := rfl

/-! ### Reads after writes -/

theorem read_below {lo a : Nat} {m : Memory} (h : Memory.wfFrom lo m = true) (ha : a < lo) :
    Memory.read m a = unlistedByte := by
  induction m generalizing lo with
  | nil => rfl
  | cons kb rest ih =>
    obtain ⟨k, b⟩ := kb
    rw [wfFrom_cons] at h
    rw [Memory.read, if_neg (by omega)]
    exact ih h.2.2.2 (by omega)

theorem read_erase_same {lo : Nat} {m : Memory} (h : Memory.wfFrom lo m = true) (a : Nat) :
    Memory.read (Memory.erase m a) a = unlistedByte := by
  induction m generalizing lo with
  | nil => rfl
  | cons kb rest ih =>
    obtain ⟨k, b⟩ := kb
    rw [wfFrom_cons] at h
    unfold Memory.erase
    split
    · exact read_below h.2.2.2 (by omega)
    · rw [Memory.read, if_neg ‹_›]
      exact ih h.2.2.2

theorem read_erase_other (m : Memory) {a b : Nat} (hab : b ≠ a) :
    Memory.read (Memory.erase m a) b = Memory.read m b := by
  induction m with
  | nil => rfl
  | cons kb rest ih =>
    obtain ⟨k, v⟩ := kb
    unfold Memory.erase
    split
    · rw [Memory.read, if_neg (by omega)]
    · simp only [Memory.read, ih]

theorem read_insert_same (m : Memory) (a : Nat) (v : Byte) : Memory.read (Memory.insert m a v) a = v := by
  induction m with
  | nil => simp [Memory.insert, Memory.read]
  | cons kb rest ih =>
    obtain ⟨k, b⟩ := kb
    unfold Memory.insert
    split
    · simp [Memory.read]
    · split
      · simp [Memory.read]
      · rw [Memory.read, if_neg (by omega), ih]

theorem read_insert_other (m : Memory) {a b : Nat} (v : Byte) (hab : b ≠ a) :
    Memory.read (Memory.insert m a v) b = Memory.read m b := by
  induction m with
  | nil => simp [Memory.insert, Memory.read, Ne.symm hab]
  | cons kb rest ih =>
    obtain ⟨k, w⟩ := kb
    unfold Memory.insert
    split
    · rw [Memory.read, if_neg (Ne.symm hab)]
    · split
      · subst_vars
        simp [Memory.read, Ne.symm hab]
      · simp only [Memory.read, ih]

/-- A write leaves every other byte alone. -/
theorem read_write_other (m : Memory) {a b : Nat} (v : Byte) (hab : b ≠ a) :
    Memory.read (Memory.write m a v) b = Memory.read m b := by
  unfold Memory.write
  split
  · split
    · exact read_erase_other m hab
    · exact read_insert_other m v hab
  · rfl

/-- A read after a write to the same byte gives the byte written. -/
theorem read_write_same {m : Memory} (h : Memory.wf m = true) {a : Nat} (ha : a < 2 ^ 64) (v : Byte) :
    Memory.read (Memory.write m a v) a = v := by
  unfold Memory.write
  rw [if_pos ha]
  split
  · subst_vars
    exact read_erase_same h a
  · exact read_insert_same m a v

/-- Canonical memories that read alike are equal. -/
theorem wfFrom_ext {lo : Nat} {m m' : Memory} (h : Memory.wfFrom lo m = true) (h' : Memory.wfFrom lo m' = true)
    (heq : ∀ a, Memory.read m a = Memory.read m' a) : m = m' := by
  induction m generalizing lo m' with
  | nil =>
    cases m' with
    | nil => rfl
    | cons kb rest =>
      obtain ⟨k, b⟩ := kb
      rw [wfFrom_cons] at h'
      have := heq k
      simp [Memory.read] at this
      exact absurd this.symm h'.2.2.1
  | cons kb rest ih =>
    obtain ⟨k, b⟩ := kb
    rw [wfFrom_cons] at h
    cases m' with
    | nil =>
      have := heq k
      simp [Memory.read] at this
      exact absurd this h.2.2.1
    | cons kb' rest' =>
      obtain ⟨k', b'⟩ := kb'
      rw [wfFrom_cons] at h'
      have hk : k = k' := by
        rcases Nat.lt_trichotomy k k' with hlt | heq' | hgt
        · have := heq k
          rw [Memory.read, if_pos rfl, Memory.read, if_neg (by omega), read_below h'.2.2.2 (by omega)] at this
          exact absurd this h.2.2.1
        · exact heq'
        · have := heq k'
          rw [Memory.read, if_neg (by omega), read_below h.2.2.2 (by omega), Memory.read, if_pos rfl] at this
          exact absurd this.symm h'.2.2.1
      subst hk
      have hb : b = b' := by
        have := heq k
        simpa [Memory.read] using this
      subst hb
      congr 1
      refine ih h.2.2.2 h'.2.2.2 fun a => ?_
      by_cases ha : k = a
      · subst ha
        rw [read_below h.2.2.2 (by omega), read_below h'.2.2.2 (by omega)]
      · have := heq a
        simpa [Memory.read, ha] using this

/-- Equal memories are equal data: canonical memories are equal when they read alike. -/
theorem memory_ext {m m' : Memory} (h : Memory.wf m = true) (h' : Memory.wf m' = true)
    (heq : ∀ a, Memory.read m a = Memory.read m' a) : m = m' := wfFrom_ext h h' heq

/-! ### Samples and rows -/

/-- A sample write changes only the sample's bytes. -/
theorem read_storeSample_other (m : Memory) {a n v b : Nat} (hn : n = 1 ∨ n = 2) (hb : b < a ∨ a + n ≤ b) :
    Memory.read (storeSample m a n v) b = Memory.read m b := by
  rcases hn with rfl | rfl
  · exact read_write_other _ _ (by omega)
  · rw [storeSample, read_write_other _ _ (by omega), read_write_other _ _ (by omega)]
    simp

theorem loadSample_congr {m m' : Memory} {a n : Nat} (hn : n = 1 ∨ n = 2)
    (h : ∀ b, a ≤ b → b < a + n → Memory.read m b = Memory.read m' b) : loadSample m a n = loadSample m' a n := by
  rcases hn with rfl | rfl
  · simp [loadSample, h a (by omega) (by omega)]
  · simp [loadSample, h a (by omega) (by omega), h (a + 1) (by omega) (by omega)]

/-- A one-byte sample reads back its low byte (R63). -/
theorem loadSample_storeSample_one {m : Memory} (h : Memory.wf m = true) {a : Nat} (ha : a < 2 ^ 64) (v : Nat) :
    loadSample (storeSample m a 1 v) a 1 = v % 256 := by
  simp [loadSample, storeSample, read_write_same h ha]

/-- A two-byte sample reads back its low 16 bits, little-endian (R62, R63). -/
theorem loadSample_storeSample_two {m : Memory} (h : Memory.wf m = true) {a : Nat} (ha : a + 1 < 2 ^ 64) (v : Nat) :
    loadSample (storeSample m a 2 v) a 2 = v % 65536 := by
  have h1 : Memory.wf (Memory.write m a (BitVec.ofNat 8 v)) = true := wf_write _ _ _ h
  have e1 : Memory.read (storeSample m a 2 v) a = BitVec.ofNat 8 v := by
    rw [storeSample, read_write_other _ _ (by omega), read_write_same h (by omega)]
    simp
  have e2 : Memory.read (storeSample m a 2 v) (a + 1) = BitVec.ofNat 8 (v / 256) := by
    rw [storeSample, read_write_same h1 ha]
    simp
  simp only [loadSample, e1, e2, BitVec.toNat_ofNat]
  omega

theorem dstBytes_cases (op : ScaleOp) : dstBytes op = 1 ∨ dstBytes op = 2 := by cases op <;> simp [dstBytes]

theorem srcBytes_cases (op : ScaleOp) : srcBytes op = 1 ∨ srcBytes op = 2 := by cases op <;> simp [srcBytes]

/-- Free values written at a list of addresses change no other byte. -/
theorem read_foldl_write_other (l : List Nat) (g : Nat → Byte) (m : Memory) {b : Nat} (hb : b ∉ l) :
    Memory.read (l.foldl (fun m a => Memory.write m a (g a)) m) b = Memory.read m b := by
  induction l generalizing m with
  | nil => rfl
  | cons a rest ih =>
    rw [List.foldl_cons, ih _ (fun h => hb (List.mem_cons_of_mem _ h)),
      read_write_other _ _ (by rintro rfl; exact hb List.mem_cons_self)]

theorem read_scramble_other (l : List Nat) (s : State) {b : Nat} (hb : b ∉ l) :
    Memory.read (scramble l s).mem b = Memory.read s.mem b := read_foldl_write_other l _ _ hb

/-- The addresses listed for a footprint lie in it. -/
theorem inSpans_of_mem_spanBytes {cfg : Config} {spans : List (Int × Int)} {a : Nat} (h : a ∈ spanBytes cfg spans) :
    inSpans spans a = true := by
  unfold spanBytes at h
  rw [List.mem_flatMap] at h
  obtain ⟨sp, hsp, h⟩ := h
  rw [List.mem_filterMap] at h
  obtain ⟨k, hk, h⟩ := h
  rw [List.mem_range] at hk
  dsimp only at h
  split at h
  · rename_i hc
    rw [Bool.and_eq_true, decide_eq_true_eq] at hc
    rw [Option.some.injEq] at h
    have ha : ((a : Nat) : Int) = sp.1 + (k : Int) := by omega
    unfold inSpans
    rw [List.any_eq_true]
    refine ⟨sp, hsp, ?_⟩
    rw [Bool.and_eq_true, decide_eq_true_eq, decide_eq_true_eq]
    omega
  · exact absurd h (by simp)

/-- Scrambling a destination footprint changes no byte outside it. -/
theorem read_scrambleDst_other (op : ScaleOp) (pl : Planes) (s : State) {b : Nat}
    (hb : inSpans (dstSpans op pl) b = false) :
    Memory.read (scrambleDst op pl s).mem b = Memory.read s.mem b := by
  refine read_scramble_other _ _ fun h => ?_
  rw [inSpans_of_mem_spanBytes h] at hb
  exact absurd hb (by simp)

end Sys2Proof.Machine
end

