-- ==== Sys2Proof/Laws/Ops.lean ====
section
/-! SUPPORT. One lemma per shared operation that says once what it can do: rows and planes built by index, row reads, the
answer of an internal operation, the stores of a row, and the cases of a path and of a command. -/

namespace Sys2Proof.Machine

/-! ### Rows by value -/

theorem listRow_ok {l : Row} {i : Nat} (h : i < l.length) : listRow l i = .ok l[i] := by
  simp [listRow, h]

theorem listRow_neg (l : Row) {i : Int} (h : i < 0) : listRow l i = .error .oob := by
  simp [listRow, show ¬ 0 ≤ i by omega]

theorem listRow_past (l : Row) {i : Int} (h : (l.length : Int) ≤ i) : listRow l i = .error .oob := by
  unfold listRow
  split
  · rw [List.getElem?_eq_none (by omega)]
  · rfl

/-- A row read answers a sample of the row, or raises ERR_OOB and nothing else (R67). -/
theorem listRow_cases (l : Row) (i : Int) :
    (∃ k : Nat, i = k ∧ ∃ h : k < l.length, listRow l i = .ok l[k]) ∨ listRow l i = .error .oob := by
  by_cases h : 0 ≤ i ∧ i < l.length
  · refine .inl ⟨i.toNat, by omega, by omega, ?_⟩
    obtain ⟨k, rfl⟩ := Int.eq_ofNat_of_zero_le h.1
    exact listRow_ok (by omega)
  · right
    by_cases h0 : i < 0
    · exact listRow_neg l h0
    · exact listRow_past l (by omega)

/-- A plane read inside the plane (R64). -/
theorem srcRow_ok (op : ScaleOp) (pl : Planes) (m : Memory) {r c : Nat} (hr : r < srcHeight pl) (hc : c < srcWidth pl) :
    srcRow op pl m r c = .ok (loadSample m (srcAddr op pl r c).toNat (srcBytes op)) := by
  simp [srcRow, hr, hc]

/-- A plane read outside the plane raises ERR_OOB (R67). -/
theorem srcRow_oob (op : ScaleOp) (pl : Planes) (m : Memory) {r c : Int}
    (h : r < 0 ∨ srcHeight pl ≤ r ∨ c < 0 ∨ srcWidth pl ≤ c) : srcRow op pl m r c = .error .oob := by
  unfold srcRow
  rw [if_neg (by omega)]

/-! ### Rows and planes by index -/

theorem rowFrom_ok (f : Nat → Res Nat) (g : Nat → Nat) (i n : Nat) (h : ∀ k, k < n → f (i + k) = .ok (g (i + k))) :
    rowFrom f i n = .ok ((List.range' i n).map g) := by
  induction n generalizing i with
  | zero => rfl
  | succ n ih =>
    have h0 := h 0 (by omega)
    have hrest := ih (i + 1) fun k hk => by
      have := h (k + 1) (by omega)
      rwa [show i + (k + 1) = i + 1 + k by omega] at this
    rw [Nat.add_zero] at h0
    simp [rowFrom, h0, hrest, List.range'_succ, bind, Except.bind]

/-- A row whose every index has a value is the list of the values. -/
theorem rowOf_ok {f : Nat → Res Nat} {n : Nat} (g : Nat → Nat) (h : ∀ i, i < n → f i = .ok (g i)) :
    rowOf n f = .ok ((List.range n).map g) := by
  rw [rowOf, rowFrom_ok f g 0 n (fun k hk => by simpa using h k hk), List.range_eq_range']

theorem rowFrom_cases (f : Nat → Res Nat) (i n : Nat) :
    (∃ d, rowFrom f i n = .ok d ∧ d.length = n ∧ ∀ k, k < n → ∃ v, f (i + k) = .ok v ∧ d[k]? = some v) ∨
    (∃ k e, k < n ∧ f (i + k) = .error e ∧ rowFrom f i n = .error e ∧ ∀ k', k' < k → ∃ v, f (i + k') = .ok v) := by
  induction n generalizing i with
  | zero => exact .inl ⟨[], rfl, rfl, by omega⟩
  | succ n ih =>
    rcases hf : f i with e | v
    · refine .inr ⟨0, e, by omega, by simpa using hf, ?_, by omega⟩
      simp [rowFrom, hf, bind, Except.bind]
    · rcases ih (i + 1) with ⟨d, hd, hlen, hget⟩ | ⟨k, e, hk, hfk, hrow, hbefore⟩
      · refine .inl ⟨v :: d, by simp [rowFrom, hf, hd, bind, Except.bind], by simp [hlen], ?_⟩
        intro k hk
        cases k with
        | zero => exact ⟨v, by simpa using hf, rfl⟩
        | succ k =>
          obtain ⟨w, hw, hdw⟩ := hget k (by omega)
          exact ⟨w, by rwa [show i + (k + 1) = i + 1 + k by omega], by simpa using hdw⟩
      · refine .inr ⟨k + 1, e, by omega, by rwa [show i + (k + 1) = i + 1 + k by omega], ?_, ?_⟩
        · simp [rowFrom, hf, hrow, bind, Except.bind]
        · intro k' hk'
          cases k' with
          | zero => exact ⟨v, by simpa using hf⟩
          | succ k' =>
            rw [show i + (k' + 1) = i + 1 + k' by omega]
            exact hbefore k' (by omega)

/-- Everything a row computation can do: every index has its value, or the first index that has none raises. -/
theorem rowOf_cases (f : Nat → Res Nat) (n : Nat) :
    (∃ d, rowOf n f = .ok d ∧ d.length = n ∧ ∀ k, k < n → ∃ v, f k = .ok v ∧ d[k]? = some v) ∨
    (∃ k e, k < n ∧ f k = .error e ∧ rowOf n f = .error e ∧ ∀ k', k' < k → ∃ v, f k' = .ok v) := by
  simpa [rowOf] using rowFrom_cases f 0 n

theorem rowOf_length {f : Nat → Res Nat} {n : Nat} {d : Row} (h : rowOf n f = .ok d) : d.length = n := by
  rcases rowOf_cases f n with ⟨d', hd', hlen, _⟩ | ⟨_, _, _, _, he, _⟩
  · rw [h] at hd'
    exact (Except.ok.inj hd') ▸ hlen
  · rw [h] at he
    cases he

/-- A row one of whose indices raises ERR_OOB, and that raises nothing else, raises ERR_OOB (R67). -/
theorem rowOf_oob {f : Nat → Res Nat} {n j : Nat} (hj : j < n) (hf : f j = .error .oob)
    (h : ∀ k e, f k = .error e → e = .oob) : rowOf n f = .error .oob := by
  rcases rowOf_cases f n with ⟨_, _, _, hd⟩ | ⟨k, e, _, hk, hrow, _⟩
  · obtain ⟨v, hv, _⟩ := hd j hj
    rw [hf] at hv
    cases hv
  · rw [hrow, h k e hk]

/-- A read of a row given by value raises ERR_OOB or nothing. -/
theorem listRow_error {l : Row} {i : Int} {e : Err} (h : listRow l i = .error e) : e = .oob := by
  rcases listRow_cases l i with ⟨_, _, _, hk⟩ | ho
  · rw [hk] at h
    cases h
  · rw [ho] at h
    exact (Except.error.inj h).symm

/-- Rows that agree at every index below n are the same row. -/
theorem rowFrom_congr {f g : Nat → Res Nat} {i n : Nat} (h : ∀ k, i ≤ k → k < i + n → f k = g k) :
    rowFrom f i n = rowFrom g i n := by
  induction n generalizing i with
  | zero => rfl
  | succ n ih =>
    rw [rowFrom, rowFrom, h i (by omega) (by omega), ih fun k h1 h2 => h k (by omega) (by omega)]

theorem rowOf_congr {f g : Nat → Res Nat} {n : Nat} (h : ∀ k, k < n → f k = g k) : rowOf n f = rowOf n g :=
  rowFrom_congr fun k _ hk => h k (by omega)

theorem planeFrom_ok (f : Nat → Res Row) (g : Nat → Row) (j n : Nat) (h : ∀ k, k < n → f (j + k) = .ok (g (j + k))) :
    planeFrom f j n = .ok ((List.range' j n).map fun r => (r, g r)) := by
  induction n generalizing j with
  | zero => rfl
  | succ n ih =>
    have h0 := h 0 (by omega)
    have hrest := ih (j + 1) fun k hk => by
      have := h (k + 1) (by omega)
      rwa [show j + (k + 1) = j + 1 + k by omega] at this
    rw [Nat.add_zero] at h0
    simp [planeFrom, h0, hrest, List.range'_succ, bind, Except.bind]

/-- A plane whose every row has a value is the list of the rows. -/
theorem planeOf_ok {jb : PathJob} {f : Nat → Res Row} (g : Nat → Row) (h : ∀ j, j < jobHd jb → f j = .ok (g j)) :
    planeOf jb f = .ok ((List.range (jobHd jb)).map fun r => (r, g r)) := by
  rw [planeOf, planeFrom_ok f g 0 _ (fun k hk => by simpa using h k hk), List.range_eq_range']

theorem planeFrom_congr {f g : Nat → Res Row} {j n : Nat} (h : ∀ k, j ≤ k → k < j + n → f k = g k) :
    planeFrom f j n = planeFrom g j n := by
  induction n generalizing j with
  | zero => rfl
  | succ n ih =>
    rw [planeFrom, planeFrom, h j (by omega) (by omega), ih fun k h1 h2 => h k (by omega) (by omega)]

theorem planeOf_congr {jb : PathJob} {f g : Nat → Res Row} (h : ∀ j, j < jobHd jb → f j = g j) :
    planeOf jb f = planeOf jb g := planeFrom_congr fun k _ hk => h k (by omega)

/-! ### Answers -/

@[simp] theorem answer_ok (v : OpResult) (s : State) : answer (.ok v) s = .next (setResult v s) := rfl

@[simp] theorem answer_error (e : Err) (s : State) : answer (.error e) s = .next (raiseWhileRunning e s) := rfl

@[simp] theorem answerRow_ok (d : Row) (s : State) : answerRow (.ok d) s = .next (setResult (.row d) s) := rfl

@[simp] theorem answerRow_error (e : Err) (s : State) : answerRow (.error e) s = .next (raiseWhileRunning e s) := rfl

/-- An internal operation answers its value in the result port, or raises; it never stops the machine. -/
theorem answer_cases (r : Res OpResult) (s : State) :
    (∃ v, r = .ok v ∧ answer r s = .next (setResult v s)) ∨
    (∃ e, r = .error e ∧ answer r s = .next (raiseWhileRunning e s)) := by
  rcases r with e | v
  · exact .inr ⟨e, rfl, rfl⟩
  · exact .inl ⟨v, rfl, rfl⟩

/-- While Idle, raising from an internal operation touches no memory. -/
theorem raiseWhileRunning_mem_idle (e : Err) {s : State} (h : s.phase = .idle) :
    (raiseWhileRunning e s).mem = s.mem := by
  simp [raiseWhileRunning, h]

/-! ### Stores of a row -/

/-- Storing a row changes only the bytes of its samples. -/
theorem read_storeRow_other (op : ScaleOp) (pl : Planes) (r c : Nat) (d : Row) (m : Memory) {b : Nat}
    (hb : ∀ k, k < d.length →
      b < (dstAddr op pl r (c + k)).toNat ∨ (dstAddr op pl r (c + k)).toNat + dstBytes op ≤ b) :
    Memory.read (storeRow op pl r c d m) b = Memory.read m b := by
  induction d generalizing c m with
  | nil => rfl
  | cons v rest ih =>
    rw [storeRow, ih]
    · exact read_storeSample_other _ (dstBytes_cases op) (by simpa using hb 0 (by simp))
    · intro k hk
      have := hb (k + 1) (by simpa using hk)
      rwa [show c + 1 + k = c + (k + 1) by omega]

/-- Storing rows changes only the bytes of their samples. -/
theorem read_storeRows_other (op : ScaleOp) (pl : Planes) (w : RowWrites) (m : Memory) {b : Nat}
    (hb : ∀ rd ∈ w, ∀ k, k < rd.2.length →
      b < (dstAddr op pl rd.1 k).toNat ∨ (dstAddr op pl rd.1 k).toNat + dstBytes op ≤ b) :
    Memory.read (storeRows op pl w m) b = Memory.read m b := by
  induction w generalizing m with
  | nil => rfl
  | cons rd rest ih =>
    obtain ⟨r, d⟩ := rd
    rw [storeRows, ih _ fun rd hrd => hb rd (List.mem_cons_of_mem _ hrd),
      read_storeRow_other _ _ _ _ _ _ (by simpa using hb (r, d) List.mem_cons_self)]

/-! ### A path and a command -/

/-- Everything a path can do (R266): a check fails, the identical-plane COPY ends at once, the rows are stored, or the path
raises while it runs. -/
theorem runPath_cases (path : PathCode) (op : ScaleOp) (pl : Planes) (m : FilterMode) (s : State) :
    (∃ e, postCheck s.cfg op pl path = .fails e ∧ runPath path op pl m s = (setPath path s, some e)) ∨
    (postCheck s.cfg op pl path = .shortCircuit ∧ runPath path op pl m s = (setPath path s, none)) ∨
    (∃ w, postCheck s.cfg op pl path = .runs ∧
      pathWrites path { cfg := s.cfg, op := op, planes := pl, mode := m, mem := s.mem } (pathStep pl path m) = .ok w ∧
      runPath path op pl m s =
        ({ setStep (pathStep pl path m) (setPath path s) with
            mem := storeRows op pl w s.mem, scratchGen := s.scratchGen + 1 }, none)) ∨
    (∃ e, postCheck s.cfg op pl path = .runs ∧
      pathWrites path { cfg := s.cfg, op := op, planes := pl, mode := m, mem := s.mem } (pathStep pl path m) = .error e ∧
      runPath path op pl m s = (scrambleDst op pl (setStep (pathStep pl path m) (setPath path s)), some e)) := by
  unfold runPath
  rcases hp : postCheck s.cfg op pl path with e | _ | _
  · exact .inl ⟨e, rfl, rfl⟩
  · exact .inr (.inl ⟨rfl, rfl⟩)
  · rcases hw : pathWrites path { cfg := s.cfg, op := op, planes := pl, mode := m, mem := s.mem } (pathStep pl path m)
      with e | w
    · exact .inr (.inr (.inr ⟨e, rfl, rfl, by simp only [hw]⟩))
    · exact .inr (.inr (.inl ⟨w, rfl, rfl, by simp only [hw]; rfl⟩))

/-- Everything a scaling command can do (R266): a check before dispatch fails, or the selected path runs and the command
ends with what the path answers. -/
theorem runCommand_cases (op : ScaleOp) (f : FilterMode) (s : State) :
    (∃ e, preCheck s.cfg op (commandPlanes s) = some e ∧ runCommand op f s = raiseBeforeDispatch e s) ∨
    (preCheck s.cfg op (commandPlanes s) = none ∧
      runCommand op f s =
        endCommand
          (runPath (dispatch op (commandPlanes s) f).path op (commandPlanes s) (dispatch op (commandPlanes s) f).mode
            (setEffFilter (dispatch op (commandPlanes s) f).mode (clearStatus s))).2
          (runPath (dispatch op (commandPlanes s) f).path op (commandPlanes s) (dispatch op (commandPlanes s) f).mode
            (setEffFilter (dispatch op (commandPlanes s) f).mode (clearStatus s))).1) := by
  unfold runCommand
  rcases hp : preCheck s.cfg op (commandPlanes s) with _ | e
  · exact .inr ⟨rfl, by simp only [hp]⟩
  · exact .inl ⟨e, rfl, by simp only [hp]⟩

/-- A path keeps memory canonical. -/
theorem wf_runPath (path : PathCode) (op : ScaleOp) (pl : Planes) (m : FilterMode) (s : State)
    (h : Memory.wf s.mem = true) : Memory.wf (runPath path op pl m s).1.mem = true := by
  rcases runPath_cases path op pl m s with ⟨e, _, hr⟩ | ⟨_, hr⟩ | ⟨w, _, _, hr⟩ | ⟨e, _, _, hr⟩ <;> rw [hr]
  · exact h
  · exact h
  · exact wf_storeRows _ _ _ _ h
  · exact wf_scrambleDst _ _ _ h

/-! ### The host's side -/

/-- Everything a register access can do (R340). -/
theorem hostRegRead_cases (addr : BitVec 64) (s : State) :
    (blockOffset s.cfg addr = none ∧ hostRegRead addr s = .next s) ∨
    (∃ off, blockOffset s.cfg addr = some off ∧ off % 4 ≠ 0 ∧ hostRegRead addr s = .fault .hostMisaligned) ∨
    (∃ off, blockOffset s.cfg addr = some off ∧ off % 4 = 0 ∧
      hostRegRead addr s = .next { s with readData := readOffset off s }) := by
  unfold hostRegRead
  rcases hb : blockOffset s.cfg addr with _ | off
  · exact .inl ⟨rfl, rfl⟩
  · by_cases h : off % 4 = 0
    · exact .inr (.inr ⟨off, rfl, h, by simp [h]⟩)
    · exact .inr (.inl ⟨off, rfl, h, by simp [h]⟩)

theorem hostRegWrite_cases (addr : BitVec 64) (v : Word) (s : State) :
    (blockOffset s.cfg addr = none ∧ hostRegWrite addr v s = .next s) ∨
    (∃ off, blockOffset s.cfg addr = some off ∧ off % 4 ≠ 0 ∧ hostRegWrite addr v s = .fault .hostMisaligned) ∨
    (∃ off, blockOffset s.cfg addr = some off ∧ off % 4 = 0 ∧
      hostRegWrite addr v s = .next (writeOffset off v s)) := by
  unfold hostRegWrite
  rcases hb : blockOffset s.cfg addr with _ | off
  · exact .inl ⟨rfl, rfl⟩
  · by_cases h : off % 4 = 0
    · exact .inr (.inr ⟨off, rfl, h, by simp [h]⟩)
    · exact .inr (.inl ⟨off, rfl, h, by simp [h]⟩)

/-! ### The stepper and the box division at the edges of their domains -/

/-- Inside the operand domain of R100, FixedDiv is the truncated quotient. -/
theorem fixedDiv_of_domain {num den : Int} (hn : 0 ≤ num) (hd : 1 ≤ den) :
    fixedDiv num den = int32 ((num * 2 ^ 16).tdiv den) := if_pos ⟨hn, hd⟩

/-- Inside the operand domain of R102, FixedDiv1 is the truncated quotient. -/
theorem fixedDiv1_of_domain {num den : Int} (hn : 1 ≤ num) (hd : 2 ≤ den) :
    fixedDiv1 num den = int32 ((num * 2 ^ 16 - 0x00010001).tdiv (den - 1)) := if_pos ⟨hn, hd⟩

/-- FX.SLOPE refuses a division by zero, and else answers a step and changes nothing else. -/
theorem execFxSlope_cases (srcW srcH dstW dstH : Int) (m : FilterMode) (s : State) :
    (slopeDividesByZero srcH dstW dstH m = true ∧
      execFxSlope srcW srcH dstW dstH m s = .refused .fixedDivByZero) ∨
    (slopeDividesByZero srcH dstW dstH m = false ∧
      execFxSlope srcW srcH dstW dstH m s =
        .next { s with result := .step (scaleSlope srcW srcH dstW dstH m) }) := by
  unfold execFxSlope
  cases slopeDividesByZero srcH dstW dstH m
  · exact .inr ⟨rfl, rfl⟩
  · exact .inl ⟨rfl, rfl⟩

/-- A box that is not empty has its reciprocal. -/
theorem reciprocal_of_pos {bw bh : Nat} (hw : 1 ≤ bw) (hh : 1 ≤ bh) : reciprocal bw bh = some (65536 / (bw * bh)) :=
  if_neg (Nat.mul_ne_zero (by omega) (by omega))

/-- Every error of a sum of consecutive row reads is ERR_OOB. -/
theorem sumRun_error {l : Row} {c : Int} {k : Nat} {e : Err} (h : sumRun (listRow l) c k = .error e) : e = .oob := by
  induction k with
  | zero => cases h
  | succ k ih =>
    rw [sumRun] at h
    rcases hs : sumRun (listRow l) c k with e' | a
    · rw [hs] at h
      exact ih (hs.trans (congrArg _ (Except.error.inj h)))
    · rcases hb : listRow l (c + k) with e' | b
      · rw [hs, hb] at h
        exact listRow_error (hb.trans (congrArg _ (Except.error.inj h)))
      · rw [hs, hb] at h
        cases h

/-- A sum that reads outside the row raises ERR_OOB (R67). -/
theorem sumRun_oob {l : Row} {c : Int} {k : Nat} (hk : 1 ≤ k) (h : c < 0 ∨ (l.length : Int) < c + k) :
    sumRun (listRow l) c k = .error .oob := by
  rcases hs : sumRun (listRow l) c k with e | v
  · rw [sumRun_error hs]
  · exfalso
    have all : ∀ k v, sumRun (listRow l) c k = .ok v → ∀ i < k, 0 ≤ c + i ∧ c + i < l.length := by
      intro k
      induction k with
      | zero => intro _ _ i hi; omega
      | succ k ih =>
        intro v hv i hi
        rw [sumRun] at hv
        rcases hs' : sumRun (listRow l) c k with e' | a
        · rw [hs'] at hv
          cases hv
        · rcases listRow_cases l (c + k) with ⟨m, hm, hml, _⟩ | ho
          · by_cases hik : i < k
            · exact ih a hs' i hik
            · rw [show i = k by omega, hm]
              omega
          · rw [hs', ho] at hv
            cases hv
    have h0 := all k v hs 0 (by omega)
    have h1 := all k v hs (k - 1) (by omega)
    omega

/-- Every call but one at ratio 1 has the max_y of R214 (log 20). -/
theorem verticalMaxY_eq {pl : Planes} (h : ratioOne pl = false) :
    verticalMaxY pl = if 1 < srcHeight pl then ((srcHeight pl : Int) - 1) * 2 ^ 16 - 1 else 0 := by
  unfold verticalMaxY
  simp only [h, Bool.false_eq_true, if_false]
  split <;> split <;> first | rfl | omega

/-- At ratio 1 the coordinate of every row lies under the clamp (log 20). -/
theorem le_verticalMaxY {pl : Planes} (h : ratioOne pl = true) {j : Nat} (hj : j < srcHeight pl) :
    (j : Int) * 2 ^ 16 ≤ verticalMaxY pl := by
  unfold verticalMaxY
  simp only [h, if_true]
  split <;> omega

/-- Dispatch never selects VERTICAL at ratio 1 (R143 comes before R144). -/
theorem selectPath_ratioOne (srcW h : Int) (m : FilterMode) : selectPath srcW h srcW h m = .copy := by
  simp [selectPath]

/-- A sample of K.ADDCOLS lies in [0, MAXV(SW)], the free ones too. -/
theorem boxSample_le (br : BoxRound) (sw : SampleWidth) (sum : Nat) (sc : Option Nat) (bh : Nat) (dx : Int) (j : Nat) :
    boxSample br sw sum sc bh dx j < (match sw with | .w8 => 2 ^ 8 | .w16 => 2 ^ 16) := by
  cases sc <;> cases sw
  · exact Nat.mod_lt _ (by decide)
  · exact (Config.freeBoxSample sum bh dx j).isLt
  · exact Nat.mod_lt _ (by decide)
  · exact Nat.mod_lt _ (by decide)

end Sys2Proof.Machine
end

