-- ==== Sys2Proof/Laws/PerInstr.lean ====
section
/-! SUPPORT. Statements made per instruction: the words the encoder gives are command words (R80), and only host commands
have one (R88). -/

namespace Sys2Proof.Laws.CommandWord

/-- A word of the instruction has START = 1 and RSV = 0 (R80), and an instruction with a word is well formed. -/
def Statement (i : Instr) : Prop :=
  ∀ w, encode i = some w → cmdStart w = true ∧ cmdRsv w = 0#25 ∧ i.wf = true

theorem commandWord_start (op : BitVec 4) (f : FilterMode) : cmdStart (commandWord op f) = true := by
  cases f <;> (revert op; decide)

theorem commandWord_rsv (op : BitVec 4) (f : FilterMode) : cmdRsv (commandWord op f) = 0#25 := by
  cases f <;> (revert op; decide)

theorem of_commandWord {i : Instr} {op : BitVec 4} {f : FilterMode} (h : encode i = some (commandWord op f))
    (hw : i.wf = true) : Statement i := by
  intro w hi
  rw [h, Option.some.injEq] at hi
  subst hi
  exact ⟨commandWord_start op f, commandWord_rsv op f, hw⟩

theorem of_none {i : Instr} (h : encode i = none) : Statement i := by
  intro w hi
  rw [h] at hi
  cases hi

theorem nop (f : FilterMode) : Statement (.nop f) := of_commandWord rfl rfl
theorem scale8 (f : FilterMode) : Statement (.scale8 f) := of_commandWord rfl rfl
theorem scale16 (f : FilterMode) : Statement (.scale16 f) := of_commandWord rfl rfl
theorem scale12 (f : FilterMode) : Statement (.scale12 f) := of_commandWord rfl rfl
theorem scale16to8 (f : FilterMode) : Statement (.scale16to8 f) := of_commandWord rfl rfl
theorem illegalOp5 (f : FilterMode) : Statement (.illegalOp5 f) := of_commandWord rfl rfl
theorem illegalOp67 (f : FilterMode) (o : BitVec 1) : Statement (.illegalOp67 f o) := of_commandWord rfl rfl
theorem illegalOp8F (f : FilterMode) (o : BitVec 3) : Statement (.illegalOp8F f o) := of_commandWord rfl rfl
theorem fxDiv (num den : Nat) : Statement (.fxDiv num den) := of_none rfl
theorem fxDiv1 (num den : Nat) : Statement (.fxDiv1 num den) := of_none rfl
theorem fxCenter (d s : Int) : Statement (.fxCenter d s) := of_none rfl
theorem fxSlope (srcW srcH dstW dstH : Int) (m : FilterMode) : Statement (.fxSlope srcW srcH dstW dstH m) := of_none rfl
theorem frReduce (srcW srcH dstW dstH : Int) (m : FilterMode) :
    Statement (.frReduce srcW srcH dstW dstH m) := of_none rfl
theorem frSelect (srcW srcH dstW dstH : Int) (f : FilterMode) :
    Statement (.frSelect srcW srcH dstW dstH f) := of_none rfl
theorem frSelect12 (srcW srcH dstW dstH : Int) (f : FilterMode) :
    Statement (.frSelect12 srcW srcH dstW dstH f) := of_none rfl
theorem kNarrow (v scale : Nat) : Statement (.kNarrow v scale) := of_none rfl
theorem kDown2Point (sw : SampleWidth) (s : Row) (n : Nat) : Statement (.kDown2Point sw s n) := of_none rfl
theorem kDown2Linear (sw : SampleWidth) (s : Row) (n : Nat) : Statement (.kDown2Linear sw s n) := of_none rfl
theorem kDown2Box (sw : SampleWidth) (s t : Row) (n : Nat) : Statement (.kDown2Box sw s t n) := of_none rfl
theorem kDown4Point (sw : SampleWidth) (s : Row) (n : Nat) : Statement (.kDown4Point sw s n) := of_none rfl
theorem kDown4Box (sw : SampleWidth) (s0 s1 s2 s3 : Row) (n : Nat) :
    Statement (.kDown4Box sw s0 s1 s2 s3 n) := of_none rfl
theorem kDown34Point (sw : SampleWidth) (s : Row) (n : Nat) : Statement (.kDown34Point sw s n) := of_none rfl
theorem kDown34H (sw : SampleWidth) (s : Row) (g : Nat) : Statement (.kDown34H sw s g) := of_none rfl
theorem kDown34Box0 (sw : SampleWidth) (s t : Row) (n : Nat) : Statement (.kDown34Box0 sw s t n) := of_none rfl
theorem kDown34Box1 (sw : SampleWidth) (s t : Row) (n : Nat) : Statement (.kDown34Box1 sw s t n) := of_none rfl
theorem kDown38Point (sw : SampleWidth) (s : Row) (n : Nat) : Statement (.kDown38Point sw s n) := of_none rfl
theorem kDown38Box3 (sw : SampleWidth) (s t u : Row) (n : Nat) : Statement (.kDown38Box3 sw s t u n) := of_none rfl
theorem kDown38Box2 (sw : SampleWidth) (s t : Row) (n : Nat) : Statement (.kDown38Box2 sw s t n) := of_none rfl
theorem kUp2LinearCore (sw : SampleWidth) (s : Row) (p : Nat) (d : Row) (o : Nat) :
    Statement (.kUp2LinearCore sw s p d o) := of_none rfl
theorem kUp2Linear (sw : SampleWidth) (s : Row) (n : Nat) : Statement (.kUp2Linear sw s n) := of_none rfl
theorem kUp2BilinearCore (sw : SampleWidth) (s t : Row) (p : Nat) (d e : Row) (o : Nat) :
    Statement (.kUp2BilinearCore sw s t p d e o) := of_none rfl
theorem kUp2Bilinear (sw : SampleWidth) (s t : Row) (n : Nat) : Statement (.kUp2Bilinear sw s t n) := of_none rfl
theorem kColsPoint (sw : SampleWidth) (s : Row) (n : Nat) (x dx : Int) :
    Statement (.kColsPoint sw s n x dx) := of_none rfl
theorem kColsBlend8 (s : Row) (n : Nat) (x dx : Int) : Statement (.kColsBlend8 s n x dx) := of_none rfl
theorem kColsBlend16 (s : Row) (n : Nat) (x dx : Int) : Statement (.kColsBlend16 s n x dx) := of_none rfl
theorem kInterp (sw : SampleWidth) (s t : Row) (n : Nat) (f8 : BitVec 8) :
    Statement (.kInterp sw s t n f8) := of_none rfl
theorem kAddrow (sw : SampleWidth) (s acc : Row) (w : Nat) : Statement (.kAddrow sw s acc w) := of_none rfl
theorem kAddcols (sw : SampleWidth) (acc : Row) (bh n : Nat) (x dx : Int) :
    Statement (.kAddcols sw acc bh n x dx) := of_none rfl
theorem kBoxdiv (sw : SampleWidth) (sum sc : Nat) : Statement (.kBoxdiv sw sum sc) := of_none rfl
theorem pCopy (op : ScaleOp) (pl : Planes) (m : FilterMode) : Statement (.pCopy op pl m) := of_none rfl
theorem pVertical (op : ScaleOp) (pl : Planes) (m : FilterMode) : Statement (.pVertical op pl m) := of_none rfl
theorem pDown34 (op : ScaleOp) (pl : Planes) (m : FilterMode) : Statement (.pDown34 op pl m) := of_none rfl
theorem pDown2 (op : ScaleOp) (pl : Planes) (m : FilterMode) : Statement (.pDown2 op pl m) := of_none rfl
theorem pDown38 (op : ScaleOp) (pl : Planes) (m : FilterMode) : Statement (.pDown38 op pl m) := of_none rfl
theorem pDown4 (op : ScaleOp) (pl : Planes) (m : FilterMode) : Statement (.pDown4 op pl m) := of_none rfl
theorem pBox (op : ScaleOp) (pl : Planes) (m : FilterMode) : Statement (.pBox op pl m) := of_none rfl
theorem pUp2Linear (op : ScaleOp) (pl : Planes) (m : FilterMode) : Statement (.pUp2Linear op pl m) := of_none rfl
theorem pUp2Bilinear (op : ScaleOp) (pl : Planes) (m : FilterMode) : Statement (.pUp2Bilinear op pl m) := of_none rfl
theorem pBilinearUp (op : ScaleOp) (pl : Planes) (m : FilterMode) : Statement (.pBilinearUp op pl m) := of_none rfl
theorem pBilinearDown (op : ScaleOp) (pl : Planes) (m : FilterMode) : Statement (.pBilinearDown op pl m) := of_none rfl
theorem pSimple (op : ScaleOp) (pl : Planes) (m : FilterMode) : Statement (.pSimple op pl m) := of_none rfl
theorem pUp2Linear12 (pl : Planes) (m : FilterMode) : Statement (.pUp2Linear12 pl m) := of_none rfl
theorem pUp2Bilinear12 (pl : Planes) (m : FilterMode) : Statement (.pUp2Bilinear12 pl m) := of_none rfl

end Sys2Proof.Laws.CommandWord
end

