-- ==== Sys2Proof/Tests/Slice0.lean ====
section
/-! SUPPORT. Tests: ill-formed terms are refused, words written out from the spec's encoding decode to their instructions,
and small one-step checks whose expected values are the spec's own examples (the rule stands in each comment). -/

namespace Sys2Proof.Tests

open Sys2Proof.Machine

-- One theorem at a time: hundreds of kernel evaluations at once would ask for a thread each.
set_option Elab.async false

/-! ### Helpers -/

/-- The outcome is a next state of which the property holds. -/
def nextIs (r : Result) (p : State → Bool) : Bool :=
  match r with
  | .next t => p t
  | .fault _ | .refused _ => false

/-- The internal operation answers this in the result port, from reset. -/
def answers (i : Instr) (r : OpResult) : Bool := nextIs (exec i State.reset) fun t => t.result = r

/-- Rows of 8-bit or 16-bit samples in memory from an address on, canonical. -/
def samples8 (base : Nat) (l : List Nat) : Memory :=
  ((List.range l.length).map fun k => (base + k, BitVec.ofNat 8 (l.getD k 0))).filter fun c => c.2 ≠ 0#8

def samples16 (base : Nat) (l : List Nat) : Memory := samples8 base (l.flatMap fun v => [v % 256, v / 256])

/-- A source at 0x100 and a destination at 0x1000, rows without padding. -/
def planes (w h wd hd : Int) : Planes where
  srcBase := 0x100#64
  srcStride := BitVec.ofInt 32 w.natAbs
  srcW := BitVec.ofInt 32 w
  srcH := BitVec.ofInt 32 h
  dstBase := 0x1000#64
  dstStride := BitVec.ofInt 32 wd
  dstW := BitVec.ofInt 32 wd
  dstH := BitVec.ofInt 32 hd
  scale := 256#16

def withMem (m : Memory) : State := { State.reset with mem := m }

/-- A running command. -/
def running (op : BitVec 4) (pl : Planes) (m : Memory) : State :=
  { State.reset with mem := m, phase := .busy { op := op, filter := 0#2, rsv := 0#25, planes := pl } false }

/-- The destination plane, row by row. -/
def output (op : ScaleOp) (pl : Planes) (t : State) : List (List Nat) :=
  (List.range (dstHeight pl)).map fun r => (List.range (dstWidth pl)).map fun c => dstSample op pl t.mem r c

/-- Sample (r, c) is 10 r + c. -/
def gradient (w h : Nat) : List Nat := (List.range (w * h)).map fun k => 10 * (k / w) + k % w

/-! ### Well-formedness refuses -/

theorem test_wf_refuses_div_by_zero : (Instr.fxDiv 1 0).wf = false := by decide
theorem test_wf_refuses_div1_of_zero : (Instr.fxDiv1 0 5).wf = false := by decide
theorem test_wf_refuses_div1_guard : (Instr.fxDiv1 3 1).wf = false := by decide
theorem test_wf_refuses_center_above : (Instr.fxCenter (2 ^ 31) 0).wf = false := by decide
theorem test_wf_refuses_center_below : (Instr.fxCenter (-(2 ^ 31) - 1) 0).wf = false := by decide
theorem test_wf_refuses_slope_width : (Instr.fxSlope 0 1 1 1 .none).wf = false := by decide
theorem test_wf_refuses_slope_height : (Instr.fxSlope 1 (-1) 1 1 .none).wf = false := by decide
theorem test_wf_refuses_slope_dst_width : (Instr.fxSlope 1 1 0 1 .none).wf = false := by decide
theorem test_wf_refuses_slope_dst_height : (Instr.fxSlope 1 1 1 0 .none).wf = false := by decide
theorem test_wf_refuses_selector_operands :
    [Instr.frReduce 0 1 1 1 .box, .frReduce 1 0 1 1 .box, .frReduce 1 1 0 1 .box, .frReduce 1 1 1 0 .box,
      .frSelect 0 1 1 1 .box, .frSelect 1 0 1 1 .box, .frSelect 1 1 0 1 .box, .frSelect 1 1 1 0 .box,
      .frSelect12 0 1 1 1 .box, .frSelect12 1 0 1 1 .box, .frSelect12 1 1 0 1 .box, .frSelect12 1 1 1 0 .box].all
      (fun i => !i.wf) = true := by decide
theorem test_wf_refuses_narrow_value : (Instr.kNarrow 65536 256).wf = false := by decide
theorem test_wf_refuses_narrow_scale_below : (Instr.kNarrow 1 255).wf = false := by decide
theorem test_wf_refuses_narrow_scale_above : (Instr.kNarrow 1 32769).wf = false := by decide
theorem test_wf_refuses_wide_samples :
    [Instr.kDown2Point .w8 [256] 0, .kDown2Linear .w8 [256] 0, .kDown2Box .w8 [] [256] 0, .kDown4Point .w16 [65536] 0,
      .kDown4Box .w8 [] [] [] [256] 0, .kDown34Point .w8 [256] 0, .kDown34H .w8 [256] 0, .kDown34Box0 .w8 [] [256] 0,
      .kDown34Box1 .w8 [256] [] 0, .kDown38Point .w8 [256] 0, .kDown38Box3 .w8 [] [] [256] 0,
      .kDown38Box2 .w8 [] [256] 0, .kUp2LinearCore .w8 [] 0 [256] 0, .kUp2Linear .w8 [256] 1,
      .kUp2BilinearCore .w8 [] [] 0 [] [256] 0, .kUp2Bilinear .w8 [] [256] 1, .kColsPoint .w8 [256] 0 0 1,
      .kColsBlend8 [256] 0 0 1, .kColsBlend16 [65536] 0 0 1, .kInterp .w8 [] [256] 0 0#8].all
      (fun i => !i.wf) = true := by decide
theorem test_wf_refuses_broken_groups :
    [Instr.kDown34Point .w8 [] 1, .kDown34Box0 .w8 [] [] 2, .kDown34Box1 .w8 [] [] 4, .kDown38Point .w8 [] 1,
      .kDown38Box3 .w8 [] [] [] 2, .kDown38Box2 .w8 [] [] 4].all (fun i => !i.wf) = true := by decide
theorem test_wf_refuses_empty_doubled_row : (Instr.kUp2Linear .w8 [1] 0).wf = false := by decide
theorem test_wf_refuses_empty_doubled_pair : (Instr.kUp2Bilinear .w8 [1] [1] 0).wf = false := by decide
theorem test_wf_refuses_wide_accumulators :
    [Instr.kAddrow .w8 [] [65536] 0, .kAddrow .w16 [] [4294967296] 0, .kAddcols .w8 [65536] 1 1 0 1].all
      (fun i => !i.wf) = true := by decide
theorem test_wf_refuses_box_height : (Instr.kAddcols .w8 [1] 0 1 0 1).wf = false := by decide
theorem test_wf_refuses_box_step : (Instr.kAddcols .w8 [1] 1 1 0 0).wf = false := by decide
theorem test_wf_refuses_reciprocal : (Instr.kBoxdiv .w8 1 65537).wf = false := by decide
theorem test_wf_refuses_path_width : (Instr.pCopy .scale8 (planes 0 1 1 1) .none).wf = false := by decide
theorem test_wf_refuses_path_height : (Instr.pBox .scale8 (planes 1 32769 1 1) .none).wf = false := by decide
theorem test_wf_refuses_path_dst : (Instr.pSimple .scale8 (planes 1 1 1 (-1)) .none).wf = false := by decide
theorem test_wf_refuses_path_scale :
    (Instr.pCopy .scale16to8 { planes 1 1 1 1 with scale := 255#16 } .none).wf = false := by decide
theorem test_wf_refuses_path_odd_source :
    (Instr.pCopy .scale16to8 { planes 1 1 1 1 with srcBase := 1#64 } .none).wf = false := by decide
theorem test_wf_refuses_path_odd_destination :
    (Instr.pUp2Linear12 { planes 1 1 1 1 with dstBase := 1#64 } .none).wf = false := by decide

/-! ### Words written out from R80: START, RSV, FILTER, OP -/

theorem test_decode_nop : decode 0b10000000000000000000000000000000#32 = .ok (.nop .none) := by decide
theorem test_decode_scale8 : decode 0b10000000000000000000000000110001#32 = .ok (.scale8 .box) := by decide
theorem test_decode_scale16 : decode 0b10000000000000000000000000100010#32 = .ok (.scale16 .bilinear) := by decide
theorem test_decode_scale12 : decode 0b10000000000000000000000000010011#32 = .ok (.scale12 .linear) := by decide
theorem test_decode_scale16to8 : decode 0b10000000000000000000000000000100#32 = .ok (.scale16to8 .none) := by decide
theorem test_decode_reserved5 : decode 0b10000000000000000000000000100101#32 = .ok (.illegalOp5 .bilinear) := by decide
theorem test_decode_reserved67 : decode 0b10000000000000000000000000010110#32 = .ok (.illegalOp67 .linear 0#1) := by
  decide
theorem test_decode_reserved8F : decode 0b10000000000000000000000000111011#32 = .ok (.illegalOp8F .box 3#3) := by decide
theorem test_decode_start_clear : decode 0b00000000000000000000000000110001#32 = .error .startClear := by decide
theorem test_decode_reserved_bits :
    decode 0b11000000000000000000000000110001#32 = .error .reservedBits ∧
    decode 0b10000000000000000000000001110001#32 = .error .reservedBits := by decide
theorem test_table_word : decodeTableWord 32 0x80000031 = some (.scale8 .box) ∧ decodeTableWord 64 0x80000031 = none := by
  decide

/-! ### The stepper and the selector -/

-- R100: "FixedDiv(8, 3) = 174762"; R104: 32768 / 1 wraps.
theorem test_fxDiv : answers (.fxDiv 8 3) (.number 174762) = true := by decide +kernel
theorem test_fxDiv_wraps : answers (.fxDiv 32768 1) (.number (-2147483648)) = true := by decide +kernel
-- R102: "FixedDiv1(4, 8) = 28086"; num = 1, den = 2 truncates toward zero to -1.
theorem test_fxDiv1 : answers (.fxDiv1 4 8) (.number 28086) = true := by decide +kernel
theorem test_fxDiv1_one : answers (.fxDiv1 1 2) (.number (-1)) = true := by decide +kernel
-- R105 and 95_test_vectors.md section 2.3.
theorem test_fxCenter : answers (.fxCenter 0x20000 (-32768)) (.number 0x8000) = true := by decide +kernel
theorem test_fxCenter_negative : answers (.fxCenter (-2147483648) (-32768)) (.number (-1073709056)) = true := by
  decide +kernel
-- R114, rows 5 and 6.
theorem test_fxSlope_linear :
    answers (.fxSlope 640 480 480 480 .linear) (.step { x := 0x2AAA, y := 0x8000, dx := 0x15555, dy := 0x10000 }) = true := by
  decide +kernel
theorem test_fxSlope_mirror :
    answers (.fxSlope (-8) 8 4 4 .none) (.step { x := 0x70000, y := 0x10000, dx := -0x20000, dy := 0x20000 }) = true := by
  decide +kernel
-- R131, R134: 64x64 to 32x32 Box reduces to Bilinear; 4x1 to 8x1 Bilinear to Linear.
theorem test_frReduce_box : answers (.frReduce 64 64 32 32 .box) (.mode .bilinear) = true := by decide +kernel
theorem test_frReduce_line : answers (.frReduce 4 1 8 1 .bilinear) (.mode .linear) = true := by decide +kernel
-- R156.
theorem test_frSelect_down38 :
    answers (.frSelect 16 16 6 6 .box) (.selection { path := .down38, mode := .box, flipped := false, height := 16 })
      = true := by decide +kernel
theorem test_frSelect_mirror :
    answers (.frSelect 4 (-4) 2 2 .box) (.selection { path := .down2, mode := .bilinear, flipped := true, height := 4 })
      = true := by decide +kernel
theorem test_frSelect12 :
    answers (.frSelect12 4 4 8 8 .bilinear)
      (.selection { path := .up2Bilinear12, mode := .bilinear, flipped := false, height := 4 }) = true := by decide +kernel

/-! ### The kernels: the examples of their rules -/

-- R160.
theorem test_kNarrow : answers (.kNarrow 0x1234 256) (.number 0x12) = true := by decide +kernel
theorem test_kNarrow_clamps : answers (.kNarrow 65535 32768) (.number 255) = true := by decide +kernel
-- R162, R163, R164.
theorem test_kDown2Point : answers (.kDown2Point .w8 [10, 20, 30, 40] 2) (.row [20, 40]) = true := by decide +kernel
theorem test_kDown2Linear : answers (.kDown2Linear .w8 [10, 21] 1) (.row [16]) = true := by decide +kernel
theorem test_kDown2Box : answers (.kDown2Box .w8 [0, 10] [40, 50] 1) (.row [25]) = true := by decide +kernel
-- R165, R166.
theorem test_kDown4Point : answers (.kDown4Point .w8 [1, 2, 3, 4] 1) (.row [3]) = true := by decide +kernel
theorem test_kDown4Box :
    answers (.kDown4Box .w8 [7, 7, 7, 7] [7, 7, 15, 7] [7, 7, 7, 7] [7, 7, 7, 7] 1) (.row [8]) = true := by decide +kernel
-- R167, R168, R169, R170.
theorem test_kDown34Point : answers (.kDown34Point .w8 [1, 2, 3, 4] 3) (.row [1, 2, 4]) = true := by decide +kernel
theorem test_kDown34H : answers (.kDown34H .w8 [0, 4, 8, 12] 0) (.row [1, 6, 11]) = true := by decide +kernel
theorem test_kDown34Box0 : answers (.kDown34Box0 .w8 [0, 4, 8, 12] [4, 8, 12, 16] 3) (.row [2, 7, 12]) = true := by
  decide +kernel
theorem test_kDown34Box1 : answers (.kDown34Box1 .w8 [0, 4, 8, 12] [4, 8, 12, 16] 3) (.row [3, 8, 13]) = true := by
  decide +kernel
-- R171, R172, R173.
theorem test_kDown38Point : answers (.kDown38Point .w8 [0, 1, 2, 3, 4, 5, 6, 7] 3) (.row [0, 3, 6]) = true := by
  decide +kernel
theorem test_kDown38Box3 :
    answers (.kDown38Box3 .w8 (List.replicate 8 9) (List.replicate 8 9) (List.replicate 8 9) 3) (.row [8, 8, 8]) = true := by
  decide +kernel
theorem test_kDown38Box2 :
    answers (.kDown38Box2 .w8 (List.replicate 8 6) (List.replicate 8 6) 3) (.row [5, 5, 6]) = true := by decide +kernel
-- R174, R175, R176.
theorem test_kUp2LinearCore : answers (.kUp2LinearCore .w8 [0, 100] 1 [9, 9, 9] 1) (.row [9, 25, 75]) = true := by
  decide +kernel
theorem test_kUp2Linear : answers (.kUp2Linear .w8 [0, 100] 4) (.row [0, 25, 75, 100]) = true := by decide +kernel
theorem test_kUp2Linear_odd : answers (.kUp2Linear .w8 [0, 100] 3) (.row [0, 25, 100]) = true := by decide +kernel
-- R177, R178.
theorem test_kUp2BilinearCore :
    answers (.kUp2BilinearCore .w8 [0, 16] [32, 48] 1 [0, 0] [0, 0] 0) (.rowPair [12, 20] [28, 36]) = true := by
  decide +kernel
theorem test_kUp2Bilinear :
    answers (.kUp2Bilinear .w8 [0, 16] [32, 48] 4) (.rowPair [8, 12, 20, 24] [24, 28, 36, 40]) = true := by decide +kernel
-- R180, R182 (both precisions give 15 here), R183.
theorem test_kColsPoint : answers (.kColsPoint .w8 [5, 6, 7, 8] 2 0x10000 0x20000) (.row [6, 8]) = true := by
  decide +kernel
theorem test_kColsBlend8 : answers (.kColsBlend8 [10, 20] 1 0x8000 1) (.row [15]) = true := by decide +kernel
theorem test_kColsBlend8_zero_weight : answers (.kColsBlend8 [10] 1 0x1FF 1) (.row [10]) = true := by decide +kernel
theorem test_kColsBlend16 : answers (.kColsBlend16 [1000, 2000] 1 0x4000 1) (.row [1250]) = true := by decide +kernel
-- R184.
theorem test_kInterp : answers (.kInterp .w8 [100] [200] 1 64#8) (.row [125]) = true := by decide +kernel
theorem test_kInterp_unread : answers (.kInterp .w8 [100] [] 1 0#8) (.row [100]) = true := by decide +kernel
-- R185, R188 (b).
theorem test_kAddrow : answers (.kAddrow .w8 [3, 4] [1, 2] 2) (.row [4, 6]) = true := by decide +kernel
theorem test_kAddrow_wraps : answers (.kAddrow .w8 [255] [65535] 1) (.row [254]) = true := by decide +kernel
-- R186, R187.
theorem test_kAddcols : answers (.kAddcols .w8 [4, 6, 8, 10] 2 2 0 0x20000) (.row [3, 5]) = true := by decide +kernel
-- R186 by hand, integer branch with dx = 0: bw = 1, sc = 32768, (4 * 32768 + 32768) >> 16 = 2, (6 * 32768 + 32768) >> 16 = 3.
theorem test_kAddcols_zero_step : answers (.kAddcols .w8 [4, 6, 8] 2 2 0 0) (.row [2, 3]) = true := by decide +kernel
theorem test_kBoxdiv : answers (.kBoxdiv .w8 102 16384) (.number 26) = true := by decide +kernel
theorem test_kBoxdiv_truncates :
    nextIs (exec (.kBoxdiv .w8 102 16384) { State.reset with cfg := { Config.default with boxRound := .truncate } })
      (fun t => t.result = .number 25) = true := by decide +kernel
-- R67: a read outside the row.
theorem test_kernel_out_of_row :
    nextIs (exec (.kDown2Point .w8 [1] 1) State.reset) (fun t => t.err = some .oob && t.done) = true := by decide +kernel
-- R300: a raise ends the running command.
theorem test_raise_ends_the_command :
    nextIs (exec (.kDown2Point .w8 [1] 1) (running 0#4 (planes 4 4 2 2) []))
      (fun t => t.err = some .oob && t.done && t.phase = .idle && t.path = none) = true := by decide +kernel

/-- The operation raises ERR_OOB from reset. -/
def raisesOob (i : Instr) : Bool := nextIs (exec i State.reset) fun t => t.err = some .oob && t.done

-- R67 with R162 to R173: one column short of what the rule reads.
theorem test_downscale_kernels_raise :
    [Instr.kDown2Point .w8 [1] 1, .kDown2Linear .w8 [1] 1, .kDown2Box .w8 [1, 2] [1] 1, .kDown4Point .w8 [1, 2] 1,
     .kDown4Box .w8 [1, 2, 3, 4] [1, 2, 3, 4] [1, 2, 3, 4] [1, 2, 3] 1, .kDown34Point .w8 [1, 2, 3] 3,
     .kDown34H .w8 [1, 2, 3] 0, .kDown34Box0 .w8 [1, 2, 3, 4] [1, 2, 3] 3, .kDown34Box1 .w8 [1, 2, 3] [1, 2, 3, 4] 3,
     .kDown38Point .w8 [1, 2, 3, 4, 5, 6] 3,
     .kDown38Box2 .w8 [1, 2, 3, 4, 5, 6, 7, 8] [1, 2, 3, 4, 5, 6, 7] 3,
     .kDown38Box3 .w8 [1, 2, 3, 4, 5, 6, 7, 8] [1, 2, 3, 4, 5, 6, 7, 8] [1, 2, 3, 4, 5, 6, 7] 3].all raisesOob = true := by
  decide +kernel
-- R67 with R174 to R186: one column short, and one column to the left of the row.
theorem test_other_kernels_raise :
    [Instr.kUp2LinearCore .w8 [1] 1 [0, 0] 0, .kUp2Linear .w8 [1] 3, .kUp2BilinearCore .w8 [1, 2] [1] 1 [0, 0] [0, 0] 0,
     .kUp2Bilinear .w8 [1, 2] [1] 3, .kColsPoint .w8 [1] 1 (-1) 0, .kColsPoint .w8 [1] 2 0 0x10000,
     .kColsBlend8 [1] 1 0x200 0, .kColsBlend16 [1] 1 1 0, .kInterp .w8 [1] [] 1 1#8, .kAddrow .w8 [1] [1, 2] 2,
     .kAddcols .w8 [1] 1 1 0 0x20000, .kAddcols .w8 [1] 1 1 (-1) 0x10000].all raisesOob = true := by
  decide +kernel

/-! ### The paths: the examples of their rules -/

-- R210.
theorem test_pCopy :
    nextIs (exec (.pCopy .scale8 (planes 2 1 2 1) .none) (withMem (samples8 0x100 [7, 9])))
      (fun t => output .scale8 (planes 2 1 2 1) t = [[7, 9]] && t.path = some .copy) = true := by decide +kernel
-- R214.
theorem test_pVertical :
    nextIs (exec (.pVertical .scale8 (planes 2 4 2 2) .bilinear) (withMem (samples8 0x100 [0, 1, 40, 41, 80, 81, 120, 121])))
      (fun t => output .scale8 (planes 2 4 2 2) t = [[20, 21], [100, 101]] && t.stepDY = 0x20000#32) = true := by
  decide +kernel
-- R153, last row (log 20): at ratio 1 the last row is the source's last row.
theorem test_pVertical_ratio_one :
    nextIs (exec (.pVertical .scale8 (planes 1 2 1 2) .none) (withMem (samples8 0x100 [10, 20])))
      (fun t => output .scale8 (planes 1 2 1 2) t = [[10], [20]] && t.stepDY = 0x10000#32) = true := by decide +kernel
-- R216, T1.
theorem test_pDown2 :
    nextIs (exec (.pDown2 .scale8 (planes 4 4 2 2) .bilinear)
        (withMem (samples8 0x100 ((List.range 16).map (10 * ·)))))
      (fun t => output .scale8 (planes 4 4 2 2) t = [[25, 45], [105, 125]]) = true := by decide +kernel
-- R218.
theorem test_pDown4 :
    nextIs (exec (.pDown4 .scale8 (planes 4 4 1 1) .none) (withMem (samples8 0x100 (List.range 16))))
      (fun t => output .scale8 (planes 4 4 1 1) t = [[10]]) = true := by decide +kernel
theorem test_pDown4_box :
    nextIs (exec (.pDown4 .scale8 (planes 4 4 1 1) .box) (withMem (samples8 0x100 (List.range 16))))
      (fun t => output .scale8 (planes 4 4 1 1) t = [[8]]) = true := by decide +kernel
-- R220: output row 2 of 8x8, None.
theorem test_pDown34 :
    nextIs (exec (.pDown34 .scale8 (planes 8 8 6 6) .none) (withMem (samples8 0x100 (gradient 8 8))))
      (fun t => (output .scale8 (planes 8 8 6 6) t)[2]? = some [30, 31, 33, 34, 35, 37]) = true := by decide +kernel
-- R223: constant 200.
theorem test_pDown38 :
    nextIs (exec (.pDown38 .scale8 (planes 8 8 3 3) .box) (withMem (samples8 0x100 (List.replicate 64 200))))
      (fun t => output .scale8 (planes 8 8 3 3) t = [[199, 199, 199], [199, 199, 199], [199, 199, 200]]) = true := by
  decide +kernel
-- R229, nearest.
theorem test_pBox :
    nextIs (exec (.pBox .scale8 (planes 10 10 3 3) .box) (withMem (samples8 0x100 (gradient 10 10))))
      (fun t => output .scale8 (planes 10 10 3 3) t = [[11, 14, 17], [41, 44, 47], [71, 74, 77]]) = true := by
  decide +kernel
-- R235, R262.
theorem test_pUp2Linear :
    nextIs (exec (.pUp2Linear .scale16 (planes 2 1 4 1) .linear) (withMem (samples16 0x100 [1000, 3000])))
      (fun t => output .scale16 (planes 2 1 4 1) t = [[1000, 1500, 2500, 3000]]) = true := by decide +kernel
-- R238.
theorem test_pUp2Bilinear :
    nextIs (exec (.pUp2Bilinear .scale8 (planes 2 2 4 4) .bilinear) (withMem (samples8 0x100 [0, 16, 32, 48])))
      (fun t => output .scale8 (planes 2 2 4 4) t =
        [[0, 4, 12, 16], [8, 12, 20, 24], [24, 28, 36, 40], [32, 36, 44, 48]]) = true := by decide +kernel
-- R247.
theorem test_pBilinearUp :
    nextIs (exec (.pBilinearUp .scale8 (planes 2 2 5 5) .bilinear) (withMem (samples8 0x100 [0, 100, 100, 200])))
      (fun t => output .scale8 (planes 2 2 5 5) t =
        [[0, 24, 49, 74, 99], [25, 49, 74, 99, 124], [50, 74, 99, 124, 149], [75, 99, 124, 149, 174],
          [100, 124, 149, 174, 199]]) = true := by decide +kernel
-- R252.
theorem test_pBilinearDown :
    nextIs (exec (.pBilinearDown .scale8 (planes 5 5 2 2) .bilinear) (withMem (samples8 0x100 (gradient 5 5))))
      (fun t => output .scale8 (planes 5 5 2 2) t = [[9, 11], [34, 36]]) = true := by decide +kernel
-- R253.
theorem test_pSimple :
    nextIs (exec (.pSimple .scale8 (planes 8 8 5 5) .none) (withMem (samples8 0x100 (gradient 8 8))))
      (fun t => (output .scale8 (planes 8 8 5 5) t)[2]? = some [30, 32, 33, 35, 37]) = true := by decide +kernel
-- R241, R175.
theorem test_pUp2Linear12 :
    nextIs (exec (.pUp2Linear12 (planes 2 1 4 1) .linear) (withMem (samples16 0x100 [0, 100])))
      (fun t => output .scale12 (planes 2 1 4 1) t = [[0, 25, 75, 100]] && t.path = some .up2Linear12) = true := by
  decide +kernel
-- R264.
theorem test_pUp2Bilinear12 :
    nextIs (exec (.pUp2Bilinear12 (planes 2 2 4 4) .bilinear) (withMem (samples16 0x100 [0, 4095, 4095, 0])))
      (fun t => output .scale12 (planes 2 2 4 4) t =
        [[0, 1024, 3071, 4095], [1024, 1536, 2559, 3071], [3071, 2559, 1536, 1024], [4095, 3071, 1024, 0]]) = true := by
  decide +kernel
theorem test_pUp2Bilinear12_range :
    nextIs (exec (.pUp2Bilinear12 (planes 2 2 4 4) .bilinear) (withMem (samples16 0x100 [0, 4096, 4095, 0])))
      (fun t => t.err = some .range12 && t.path = some .up2Bilinear12) = true := by decide +kernel
-- R314, U3: no exact ratio.
theorem test_path_refused :
    exec (.pDown2 .scale8 (planes 4 4 3 2) .none) State.reset = .refused .pathPrecondition := by rfl

/-! ### The commands -/

-- R260.
theorem test_nop : nextIs (exec (.nop .box) State.reset) (fun t => statusWord t = 0x00000002#32) = true := by
  decide +kernel
-- T1: STATUS = 0x00004402.
theorem test_scale8 :
    nextIs (exec (.scale8 .box) (running 1#4 (planes 4 4 2 2) (samples8 0x100 ((List.range 16).map (10 * ·)))))
      (fun t => statusWord t = 0x00004402#32 && output .scale8 (planes 4 4 2 2) t = [[25, 45], [105, 125]]) = true := by
  decide +kernel
-- R262: UP2_LINEAR, EFF_FILTER Linear.
theorem test_scale16 :
    nextIs (exec (.scale16 .linear) (running 2#4 (planes 2 1 4 1) (samples16 0x100 [1000, 3000])))
      (fun t => statusWord t = 0x00002802#32 && output .scale16 (planes 2 1 4 1) t = [[1000, 1500, 2500, 3000]]) = true := by
  decide +kernel
-- R263: SCALE = 256.
theorem test_scale16to8 :
    nextIs (exec (.scale16to8 .linear) (running 4#4 (planes 2 1 4 1) (samples16 0x100 [1000, 3000])))
      (fun t => output .scale16to8 (planes 2 1 4 1) t = [[3, 5, 9, 11]]) = true := by decide +kernel
-- R263: SCALE = 100.
theorem test_scale16to8_scale_error :
    nextIs (exec (.scale16to8 .linear) (running 4#4 { planes 2 1 4 1 with scale := 100#16 } []))
      (fun t => statusWord t = 0x00000032#32) = true := by decide +kernel
-- R264: a sample above 4095, PATH = 14.
theorem test_scale12_range :
    nextIs (exec (.scale12 .bilinear) (running 3#4 (planes 2 2 4 4) (samples16 0x100 [0, 4096, 4095, 0])))
      (fun t => t.err = some .range12 && t.path = some .up2Bilinear12 && !isBusy t) = true := by decide +kernel
-- T6: a vertical mirror, STATUS = 0x00004202.
theorem test_scale8_mirror :
    nextIs (exec (.scale8 .bilinear) (running 1#4 (planes 5 (-4) 5 2) (samples8 0x100 (gradient 5 4))))
      (fun t => statusWord t = 0x00004202#32 &&
        output .scale8 (planes 5 (-4) 5 2) t = [[25, 26, 27, 28, 29], [5, 6, 7, 8, 9]]) = true := by decide +kernel
-- R308: PATH = 7.
theorem test_scale8_mirror_box :
    nextIs (exec (.scale8 .box) (running 1#4 (planes (-16) 16 5 5) [])) (fun t => statusWord t = 0x00006782#32) = true := by
  decide +kernel
-- R268.
theorem test_reserved5 : nextIs (exec (.illegalOp5 .none) State.reset) (fun t => statusWord t = 0x12#32) = true := by
  decide +kernel
theorem test_reserved67 :
    nextIs (exec (.illegalOp67 .none 1#1) State.reset) (fun t => statusWord t = 0x12#32) = true := by decide +kernel
theorem test_reserved8F :
    nextIs (exec (.illegalOp8F .none 7#3) State.reset) (fun t => statusWord t = 0x12#32) = true := by decide +kernel

/-! ### Step, host port and the fetch of a word -/

-- R331: START right after reset ends with ERR_DIM.
theorem test_start_after_reset :
    nextIs (hostStep (.regWrite 0#64 0x80000001#32) State.reset)
      (fun t => nextIs (step t) (fun u => u.err = some .dim && u.done)) = true := by decide +kernel
theorem test_withFetchWord_runs :
    nextIs (step (State.reset.withFetchWord 32 0x80000000)) (fun t => t.done && t.err = none) = true := by decide +kernel
-- R31, R87: the reserved offset 0x1C.
theorem test_reserved_offset :
    nextIs (hostStep (.regWrite 0x1C#64 5#32) State.reset)
      (fun t => nextIs (hostStep (.regRead 0x1C#64) t) (fun u => u.readData = 0#32)) = true := by decide +kernel
-- R38 and the register map: STEP_X, STEP_Y, STEP_DX and STEP_DY at 0x38, 0x3C, 0x40 and 0x44.
theorem test_step_registers :
    [0x38#64, 0x3C#64, 0x40#64, 0x44#64].map (fun a =>
      match hostStep (.regRead a) { State.reset with stepX := 1#32, stepY := 2#32, stepDX := 3#32, stepDY := 4#32 } with
      | .next t => t.readData
      | _ => 0#32) = [1#32, 2#32, 3#32, 4#32] := by decide +kernel
-- R89: `wr SCALE, 0x12345`; the upper half is not held (R30).
theorem test_scale_register :
    nextIs (hostStep (.regWrite 0x34#64 0x12345#32) State.reset)
      (fun t => nextIs (hostStep (.regRead 0x34#64) t) (fun u => u.readData = 0x2345#32)) = true := by decide +kernel
-- R309: MEM_VALID false above 0x10000.
theorem test_bus_error :
    nextIs (exec (.scale8 .none)
        { running 1#4 { planes 2 1 2 1 with dstBase := 0xFFFF#64 } [] with
          cfg := { Config.default with holes := [(0x10000, 2 ^ 64)] } })
      (fun t => t.err = some .bus) = true := by decide +kernel
-- R305: SRC_BASE = 2^64 - 4, SRC_W = 8.
theorem test_range_error :
    nextIs (exec (.scale8 .none) (running 1#4 { planes 8 1 8 1 with srcBase := 0xFFFFFFFFFFFFFFFC#64 } []))
      (fun t => t.err = some .oob) = true := by decide +kernel
-- R306: SRC_BASE = DST_BASE, 4x4 to 2x2.
theorem test_overlap_error :
    nextIs (exec (.scale8 .none) (running 1#4 { planes 4 4 2 2 with dstBase := 0x100#64 } []))
      (fun t => t.err = some .overlap) = true := by decide +kernel

/-! ### Witnesses: concrete states and operands that meet the hypotheses of each statement, clause by clause -/

/-- A two-sample source. -/
def pair8 : State := withMem (samples8 0x100 [7, 9])

theorem witness_DecodeEncodeAgree :
    (Instr.scale12 .box).wf = true ∧ (Instr.kNarrow 65535 32768).wf = true ∧ isCommand (.scale12 .box) = true ∧
    isCommand (.kNarrow 65535 32768) = false := by decide

theorem witness_EncodeDecodeAgree :
    (0x80000000#32).getLsbD 31 = true ∧ (0x80000000#32).extractLsb' 6 25 = 0#25 ∧
    (0xC0000000#32).getLsbD 31 = true ∧ (0xC0000000#32).extractLsb' 6 25 ≠ 0#25 ∧
    (0x80000040#32).extractLsb' 6 25 ≠ 0#25 ∧ (0x8000003F#32).extractLsb' 6 25 = 0#25 ∧
    (0x7FFFFFFF#32).getLsbD 31 = false := by decide

theorem witness_StepRunsTheDecodedInstruction :
    (∃ c, (running 1#4 (planes 4 4 2 2) []).phase = .busy c false ∧ decode (latchedWord c) = .ok (.scale8 .none) ∧
      (running 1#4 (planes 4 4 2 2) []).pending = []) ∧
    (∃ c, { running 0#4 (planes 1 1 1 1) [] with pending := [.engine] }.phase = .busy c false ∧
      decode (latchedWord c) = .ok (.nop .none)) ∧
    { State.reset with pending := [.host .reset] }.pending = .host .reset :: [] ∧
    State.reset.phase = .idle ∧ State.reset.pending = [] ∧
    { State.reset with pending := [.engine] }.pending = .engine :: [] :=
  ⟨⟨_, rfl, by decide, rfl⟩, ⟨_, rfl, by decide⟩, rfl, rfl, rfl, rfl⟩

theorem witness_CmdWriteStartsACommand :
    State.reset.phase = .idle ∧ (0x80000031#32).getLsbD 31 = true ∧ (0x7FFFFFFF#32).getLsbD 31 = false := by
  refine ⟨rfl, ?_, ?_⟩ <;> decide

theorem witness_RegisterAccessRules :
    isBusy (running 1#4 (planes 4 4 2 2) []) = true ∧
    [0x00, 0x04, 0x1C, 0x34, 0x38, 0x44, 0x48, 0xFC].all (fun off => off < 0x100 && off % 4 = 0) = true ∧
    regOffset .cmd = 0x00 ∧ regOffset .scale = 0x34 ∧ regOffset .stepX = 0x38 ∧ regOffset .stepDY = 0x44 ∧
    (0x44, 5#32) ∈ [(0x38, 2#32), (0x3C, 3#32), (0x40, 4#32), (0x44, 5#32)] := by
  refine ⟨rfl, ?_, rfl, rfl, rfl, rfl, ?_⟩ <;> decide

theorem witness_ParameterWriteReadsBack :
    State.reset.phase = .idle ∧ (regOffset .srcBaseLo ≠ 0x00 ∧ regOffset .srcBaseLo ≠ 0x04 ∧ regOffset .srcBaseLo < 0x38) ∧
    regOffset .scale ≠ 0x00 ∧ regOffset .scale ≠ 0x04 ∧ regOffset .scale < 0x38 := by
  refine ⟨rfl, ?_⟩
  decide

theorem witness_ResetInputEffect :
    Memory.wf pair8.mem = true ∧ pair8.phase = .idle ∧
    (∃ c, (running 0#4 (planes 4 4 2 2) []).phase = .busy c false ∧ latchedScaleOp c = none) ∧
    (∃ c, (running 1#4 (planes 4 4 2 2) []).phase = .busy c false ∧ latchedScaleOp c = some .scale8 ∧
      inSpans (dstSpans .scale8 c.planes) (0xFFF : Nat) = false ∧ inSpans (dstSpans .scale8 c.planes) (0x1003 : Nat) = true ∧
      memValid Config.default 0x1003 = true) :=
  ⟨by decide, rfl, ⟨_, rfl, by decide⟩, ⟨_, rfl, by decide, by decide +kernel, by decide +kernel, by decide +kernel⟩⟩

theorem witness_ResetStateReadsZero :
    [ScaleOp.scale8, .scale16, .scale12, .scale16to8].all
      (fun op => (encode (commandInstr op .box)).isSome) = true ∧ 0xFF < 0x100 := by decide

theorem witness_HostMemoryAccesses :
    memValid { Config.default with holes := [(5, 6)] } (5#64).toNat = false ∧
    memValid Config.default (0xFFFFFFFFFFFFFFFF#64).toNat = true ∧ Memory.wf pair8.mem = true ∧
    pair8.phase = .idle ∧
    (∃ c, (running 1#4 (planes 4 4 2 2) []).phase = .busy c false ∧ latchedScaleOp c = some .scale8 ∧
      inSpans (srcSpans .scale8 c.planes) (0x10F#64).toNat = true ∧ inSpans (dstSpans .scale8 c.planes) (0x10F#64).toNat = false ∧
      inSpans (dstSpans .scale8 c.planes) (0x1003#64).toNat = true ∧
      inSpans (srcSpans .scale8 c.planes) (0x110#64).toNat = false ∧
      inSpans (dstSpans .scale8 c.planes) (0x1004#64).toNat = false) ∧
    (∃ c, { running 1#4 (planes 4 4 2 2) [] with
        phase := .busy { op := 1#4, filter := 0#2, rsv := 0#25, planes := planes 4 4 2 2 } true }.phase = .busy c true ∧
      latchedScaleOp c = some .scale8) ∧
    engineTurn (running 1#4 (planes 4 4 2 2) []) (running 1#4 (planes 4 4 2 2) []) :=
  ⟨by decide +kernel, by decide +kernel, by decide, rfl,
    ⟨_, rfl, by decide, by decide +kernel, by decide +kernel, by decide +kernel, by decide +kernel, by decide +kernel⟩,
    ⟨_, rfl, by decide⟩, .inl ⟨rfl, rfl⟩⟩

theorem witness_InvKeptByStep :
    Inv (startCommand 0x80000000#32 pair8) ∧ ∃ t, step (startCommand 0x80000000#32 pair8) = .next t :=
  ⟨⟨by decide, fun _ => rfl, fun _ => ⟨rfl, rfl⟩, fun _ => ⟨rfl, rfl⟩, by simp [startCommand, clearStatus],
    by simp [startCommand, clearStatus], by simp [startCommand, clearStatus]⟩, ⟨_, rfl⟩⟩

theorem witness_EngineStepCompletes :
    let s : State := running 15#4 (planes 4 4 2 2) []
    (∃ c, s.phase = .busy c false) ∧ engineTurn s s ∧
    (∃ c, { s with pending := [.engine, .host .reset] }.phase = .busy c false) ∧
    engineTurn { s with pending := [.engine, .host .reset] } { s with pending := [.host .reset] } :=
  ⟨⟨_, rfl⟩, .inl ⟨rfl, rfl⟩, ⟨_, rfl⟩, .inr ⟨_, rfl, rfl⟩⟩

theorem witness_NopOnlyCompletes :
    undisturbed State.reset = true ∧ undisturbed (running 0#4 (planes 4 4 2 2) []) = true := ⟨rfl, rfl⟩

theorem witness_ReservedCommandsRaiseErrCmd :
    undisturbed State.reset = true ∧
    (∃ c, (running 5#4 (planes 4 4 2 2) []).phase = .busy c false ∧ c.rsv = 0#25 ∧ 5 ≤ c.op.toNat) ∧
    (∃ c, { State.reset with
        phase := .busy { op := 1#4, filter := 0#2, rsv := 1#25, planes := planes 4 4 2 2 } false }.phase = .busy c false ∧
      c.rsv ≠ 0#25) ∧
    (∃ c, (running 4#4 (planes 4 4 2 2) []).phase = .busy c false ∧ c.rsv = 0#25 ∧ c.op.toNat < 5) ∧
    engineTurn (running 4#4 (planes 4 4 2 2) []) (running 4#4 (planes 4 4 2 2) []) ∧
    engineTurn { running 5#4 (planes 4 4 2 2) [] with pending := [.engine] } (running 5#4 (planes 4 4 2 2) []) :=
  ⟨rfl, ⟨_, rfl, rfl, by decide⟩, ⟨_, rfl, by decide⟩, ⟨_, rfl, rfl, by decide⟩, .inl ⟨rfl, rfl⟩, .inr ⟨_, rfl, rfl⟩⟩

-- The bounds of R302 and R303: 32768 is legal, 32769 is not; 256 and 32768 are legal, 255 and 32769 are not.
theorem witness_PreCheckErrorsExactly :
    preCheck Config.default .scale8 (planes 32769 1 1 1) = some .dim ∧
    preCheck Config.default .scale8 (planes (-32768) 32768 32768 1) = none ∧
    preCheck Config.default .scale16to8 { planes 1 1 1 1 with scale := 255#16 } = some .scale ∧
    preCheck Config.default .scale16to8 { planes 1 1 1 1 with scale := 32769#16 } = some .scale ∧
    preCheck Config.default .scale16to8 { planes 1 1 1 1 with scale := 32768#16 } = none ∧
    preCheck Config.default .scale16 { planes 1 1 1 1 with srcBase := 1#64 } = some .align := by
  decide +kernel

theorem witness_CheckFailureReport :
    undisturbed (running 1#4 (planes 4 4 2 2) []) = true ∧
    preCheck Config.default .scale8 (planes 0 1 1 1) = some .dim ∧
    preCheck Config.default .scale8 { planes 4 4 2 2 with dstBase := 0x100#64 } = none ∧
    postCheck Config.default .scale8 { planes 4 4 2 2 with dstBase := 0x100#64 } .down2 = .fails .overlap ∧
    preCheck Config.default .scale8 { planes 4 4 4 4 with dstBase := 0x100#64 } = none ∧
    postCheck Config.default .scale8 { planes 4 4 4 4 with dstBase := 0x100#64 } .copy = .shortCircuit := by
  decide +kernel

-- One request for each outcome of the checks after dispatch.
theorem witness_PostChecksInOrder :
    preCheck Config.default .scale8 (planes (-16) 16 5 5) = none ∧ (planes (-16) 16 5 5).srcW.toInt < 0 ∧
    postCheck Config.default .scale8 (planes 4 4 2 2) .down2 = .runs ∧
    (inSpans (srcSpans .scale8 { planes 8 1 8 1 with srcBase := 0xFFFFFFFFFFFFFFFC#64 }) (2 ^ 64) = true ∧
      preCheck Config.default .scale8 { planes 8 1 8 1 with srcBase := 0xFFFFFFFFFFFFFFFC#64 } = none) ∧
    (inSpans (dstSpans .scale8 (planes 2 1 2 1)) (0x1001 : Nat) = true ∧
      memValid { Config.default with holes := [(0x1001, 0x1002)] } 0x1001 = false) ∧
    (inSpans (srcSpans .scale8 { planes 4 4 2 2 with dstBase := 0x100#64 }) 0x100 = true ∧
      inSpans (dstSpans .scale8 { planes 4 4 2 2 with dstBase := 0x100#64 }) 0x100 = true) ∧
    (dstAddr .scale8 { planes 4 4 2 2 with dstStride := 0#32 } 0 0 =
      dstAddr .scale8 { planes 4 4 2 2 with dstStride := 0#32 } 1 0) ∧
    ({ Config.default with scratchBytes := 19 }.scratchBytes < srcWidth (planes 10 10 3 3) * 2 * 1) := by
  decide +kernel

theorem witness_CommandRunsItsPath :
    undisturbed (running 1#4 (planes 4 4 2 2) []) = true ∧ preCheck Config.default .scale8 (planes 4 4 2 2) = none ∧
    postCheck Config.default .scale8 (planes 4 4 2 2) (dispatch .scale8 (planes 4 4 2 2) .box).path = .runs ∧
    (dispatch .scale8 (planes 4 4 2 2) .box).path = .down2 := by
  decide +kernel

theorem witness_CommandRunsItsPath_twelve_bits :
    preCheck Config.default .scale12 (planes 2 2 4 4) = none ∧
    (dispatch .scale12 (planes 2 2 4 4) .bilinear).path = .up2Bilinear12 ∧
    postCheck Config.default .scale12 (planes 2 2 4 4) .up2Bilinear12 = .runs ∧
    ∀ r c : Nat, r < srcHeight (planes 2 2 4 4) → c < srcWidth (planes 2 2 4 4) →
      srcSample .scale12 (planes 2 2 4 4) (samples16 0x100 [0, 4095, 4095, 0]) r c ≤ 4095 := by
  refine ⟨by decide +kernel, by decide +kernel, by decide +kernel, fun r c hr hc => ?_⟩
  have h : ∀ r, r < srcHeight (planes 2 2 4 4) → ∀ c, c < srcWidth (planes 2 2 4 4) →
      srcSample .scale12 (planes 2 2 4 4) (samples16 0x100 [0, 4095, 4095, 0]) r c ≤ 4095 := by decide +kernel
  exact h r hr c hc

-- Three rows to one: UP2_LINEAR_12 reads row 1 only (R235), so the wide sample of row 0 is not read.
theorem witness_CommandRunsItsPath_unread_row :
    preCheck Config.default .scale12 (planes 2 3 3 1) = none ∧
    (dispatch .scale12 (planes 2 3 3 1) .bilinear).path = .up2Linear12 ∧
    postCheck Config.default .scale12 (planes 2 3 3 1) .up2Linear12 = .runs ∧
    4095 < srcSample .scale12 (planes 2 3 3 1) (samples16 0x100 [5000, 1, 2, 3, 4, 5]) (0 : Nat) (0 : Nat) ∧
    ∀ r c : Nat, checkedRow .up2Linear12 (planes 2 3 3 1) r → c < srcWidth (planes 2 3 3 1) →
      srcSample .scale12 (planes 2 3 3 1) (samples16 0x100 [5000, 1, 2, 3, 4, 5]) r c ≤ 4095 := by
  refine ⟨by decide +kernel, by decide +kernel, by decide +kernel, by decide +kernel, ?_⟩
  rintro r c ⟨j, hj, rfl⟩ hc
  have h : ∀ j, j < dstHeight (planes 2 3 3 1) → ∀ c, c < srcWidth (planes 2 3 3 1) →
      srcSample .scale12 (planes 2 3 3 1) (samples16 0x100 [5000, 1, 2, 3, 4, 5])
        (doubledRowIndex (srcHeight (planes 2 3 3 1)) (dstHeight (planes 2 3 3 1)) j : Nat) c ≤ 4095 := by
    decide +kernel
  exact h j hj c hc

theorem witness_StoredPlaneReadsBack :
    let pl := planes 4 4 2 2
    let plane : List (Nat × Nat) := [(0, 0), (0, 1), (1, 0), (1, 1)]
    Memory.wf pair8.mem = true ∧ dstHeight pl = 2 ∧ dstWidth pl = 2 ∧
    plane.all (fun p => 0 ≤ dstAddr .scale16 pl p.1 p.2 && dstAddr .scale16 pl p.1 p.2 + 2 ≤ 2 ^ 64) = true ∧
    plane.all (fun p => plane.all fun q => p = q || dstAddr .scale16 pl p.1 p.2 + 2 ≤ dstAddr .scale16 pl q.1 q.2 ||
      dstAddr .scale16 pl q.1 q.2 + 2 ≤ dstAddr .scale16 pl p.1 p.2) = true ∧
    dstAddr .scale16 pl 1 1 = ((0x1006 : Nat) : Int) := by
  decide +kernel

theorem witness_FootprintsAreTheSamples :
    ((1 : Nat) : Int) < |(planes 2 (-2) 2 2).srcH.toInt| ∧ ((1 : Nat) : Int) < |(planes 2 (-2) 2 2).srcW.toInt| ∧
    srcAddr .scale8 (planes 2 (-2) 2 2) 1 1 = ((0x101 : Nat) : Int) ∧
    srcAddr .scale16 (planes 2 2 2 2) 1 1 = ((0x106 : Nat) : Int) := by
  decide +kernel

theorem witness_CopyStoresTheSource :
    pathRuns .copy .scale8 (planes 2 1 2 1) .none Config.default = true ∧
    dstWidth (planes 2 1 2 1) = srcWidth (planes 2 1 2 1) ∧ dstHeight (planes 2 1 2 1) = srcHeight (planes 2 1 2 1) ∧
    (let same : Planes := { planes 2 1 2 1 with dstBase := 0x100#64 }
     preCheck Config.default .scale12 same = none ∧ ScaleOp.scale12 ≠ .scale16to8 ∧ 0 < same.srcH.toInt ∧
     same.srcBase = same.dstBase ∧ same.srcStride = same.dstStride) := by
  decide +kernel

theorem witness_SimplePicksByCoordinate :
    pathRuns .simple .scale16to8 (planes (-8) 4 5 5) .none Config.default = true := by decide +kernel

theorem witness_VerticalInterpolatesRows :
    pathRuns .vertical .scale8 (planes 2 4 2 2) .bilinear Config.default = true ∧
    dstWidth (planes 2 4 2 2) = srcWidth (planes 2 4 2 2) ∧
    ¬ (srcHeight (planes 2 4 2 2) = 32768 ∧ dstHeight (planes 2 4 2 2) = 1) ∧
    pathRuns .vertical .scale8 (planes 2 1 2 3) .none Config.default = true ∧
    -- ratio 1, and one row more
    pathRuns .vertical .scale8 (planes 2 2 2 2) .none Config.default = true ∧
    pathRuns .vertical .scale8 (planes 2 2 2 3) .none Config.default = true := by
  decide +kernel

theorem witness_HalvesAndQuarters :
    [FilterMode.none, .linear, .bilinear, .box].all (fun m => pathRuns .down2 .scale8 (planes 2 2 1 1) m Config.default)
      = true ∧
    pathRuns .down4 .scale8 (planes 4 4 1 1) .none Config.default = true ∧
    pathRuns .down4 .scale16 (planes 4 4 1 1) .box Config.default = true := by
  decide +kernel

theorem witness_ThreeQuarterPath :
    [FilterMode.none, .linear, .bilinear, .box].all (fun m => pathRuns .down34 .scale8 (planes 4 4 3 3) m Config.default)
      = true := by decide +kernel

theorem witness_ThreeEighthsPath :
    [FilterMode.none, .linear, .bilinear, .box].all (fun m => pathRuns .down38 .scale8 (planes 8 8 3 3) m Config.default)
      = true := by decide +kernel

theorem witness_BoxAverages : pathRuns .box .scale8 (planes 10 10 3 3) .box Config.default = true := by decide +kernel

theorem witness_DoubledRowsLinear :
    pathRuns .up2Linear .scale8 (planes 2 1 3 1) .linear Config.default = true ∧
    pathRuns .up2Linear12 .scale12 (planes 2 3 3 1) .linear Config.default = true ∧
    ∀ r c : Nat, checkedRow .up2Linear12 (planes 2 3 3 1) r → c < srcWidth (planes 2 3 3 1) →
      srcSample .scale12 (planes 2 3 3 1) (samples16 0x100 [5000, 1, 2, 3, 4, 5]) r c ≤ 4095 :=
  ⟨by decide +kernel, by decide +kernel, witness_CommandRunsItsPath_unread_row.2.2.2.2⟩

theorem witness_DoubledPlaneBilinear :
    Memory.wf (samples16 0x100 [0, 4095, 4095, 0]) = true ∧
    pathRuns .up2Bilinear .scale8 (planes 2 2 3 3) .bilinear Config.default = true ∧
    pathRuns .up2Bilinear12 .scale12 (planes 2 2 4 4) .bilinear Config.default = true ∧
    ∀ r c : Nat, r < srcHeight (planes 2 2 4 4) → c < srcWidth (planes 2 2 4 4) →
      srcSample .scale12 (planes 2 2 4 4) (samples16 0x100 [0, 4095, 4095, 0]) r c ≤ 4095 :=
  ⟨by decide +kernel, by decide +kernel, by decide +kernel, witness_CommandRunsItsPath_twelve_bits.2.2.2⟩

theorem witness_BilinearUpBlends :
    pathRuns .bilinearUp .scale8 (planes 2 2 5 5) .bilinear Config.default = true ∧
    pathRuns .bilinearUp .scale8 (planes 2 2 5 5) .linear Config.default = true ∧
    srcHeight (planes 2 2 5 5) < dstHeight (planes 2 2 5 5) := by
  decide +kernel

theorem witness_BilinearDownBlends :
    pathRuns .bilinearDown .scale8 (planes 5 5 2 2) .bilinear Config.default = true ∧
    pathRuns .bilinearDown .scale16 (planes (-5) 5 2 2) .linear Config.default = true := by
  decide +kernel

/-- 32768 rows of one column, to one row. -/
def tall : Planes := { planes 1 32768 1 1 with srcBase := 0x10000#64 }

/-- The rows of a source of 32768 one-byte rows. -/
def tallSpans : List (Int × Int) := (List.range 32768).map fun r : Nat => ((65536 + r : Int), (65537 + r : Int))

theorem tall_spans : srcSpans .scale8 tall = tallSpans := by
  have hH : srcHeight tall = 32768 := by decide
  have hW : srcWidth tall = 1 := by decide
  have hs : tall.srcStride.toInt = 1 := by decide
  have hb : (tall.srcBase.toNat : Int) = 65536 := by decide
  unfold srcSpans tallSpans
  rw [hH]
  refine List.map_congr_left fun r _ => ?_
  simp only [srcPhysAddr, hW, hs, hb, srcBytes, Prod.mk.injEq]
  omega

theorem tall_postCheck : postCheck Config.default .scale8 tall .vertical = .runs := by
  have hd : dstSpans .scale8 tall = [(4096, 4097)] := by decide +kernel
  have space : spansInSpace tallSpans = true := by
    simp only [spansInSpace, tallSpans, List.all_map, List.all_eq_true, List.mem_range, Function.comp,
      Bool.and_eq_true, decide_eq_true_eq]
    omega
  have meet : spansMeet tallSpans [(4096, 4097)] = false := by
    simp only [spansMeet, tallSpans, List.any_eq_false, List.mem_map, List.mem_range]
    rintro x ⟨r, hr, rfl⟩
    simp
    omega
  have valid : spansValid Config.default tallSpans = true := by simp [spansValid, Config.default]
  have self : dstSelfOverlap tall = false := by decide +kernel
  unfold postCheck
  rw [tall_spans, hd, space, meet, valid, self]
  decide +kernel

theorem witness_VerticalOverflowRaisesOob :
    pathRuns .vertical .scale8 tall .none Config.default = true ∧ Memory.wf State.reset.mem = true ∧
    undisturbed State.reset = true ∧ srcHeight tall = 32768 ∧ dstHeight tall = 1 := by
  refine ⟨?_, rfl, rfl, by decide, by decide⟩
  have ready : pathReady .vertical .scale8 tall .none Config.default = true := by decide +kernel
  rw [pathRuns, ready, tall_postCheck]
  rfl

theorem witness_WideSamplesRaiseRange12 :
    Memory.wf (samples16 0x100 [0, 4096, 1, 2]) = true ∧ undisturbed State.reset = true ∧
    0 < srcHeight (planes 2 2 4 4) ∧ 1 < srcWidth (planes 2 2 4 4) ∧
    4095 < srcSample .scale12 (planes 2 2 4 4) (samples16 0x100 [0, 4096, 1, 2]) (0 : Nat) (1 : Nat) ∧
    pathRuns .up2Bilinear12 .scale12 (planes 2 2 4 4) .bilinear Config.default = true ∧
    pathRuns .up2Linear12 .scale12 (planes 2 2 4 4) .linear Config.default = true ∧
    checkedRow .up2Linear12 (planes 2 2 4 4) 0 :=
  ⟨by decide +kernel, by decide +kernel, by decide +kernel, by decide +kernel, by decide +kernel, by decide +kernel,
    by decide +kernel, ⟨0, by decide +kernel, by decide +kernel⟩⟩

theorem witness_CommandReportsRunningErrors :
    undisturbed (running 1#4 tall []) = true ∧ Memory.wf (running 1#4 tall []).mem = true ∧
    preCheck Config.default .scale8 tall = none ∧ (dispatch .scale8 tall .bilinear).path = .vertical ∧
    postCheck Config.default .scale8 tall .vertical = .runs ∧ srcHeight tall = 32768 ∧ dstHeight tall = 1 :=
  ⟨rfl, rfl, by decide +kernel, by decide +kernel, tall_postCheck, by decide, by decide⟩

theorem witness_CommandReportsRunningErrors_range :
    preCheck Config.default .scale12 (planes 2 2 4 4) = none ∧
    (dispatch .scale12 (planes 2 2 4 4) .bilinear).path = .up2Bilinear12 ∧
    postCheck Config.default .scale12 (planes 2 2 4 4) .up2Bilinear12 = .runs ∧
    checkedRow .up2Bilinear12 (planes 2 2 4 4) 0 ∧ 1 < srcWidth (planes 2 2 4 4) ∧
    4095 < srcSample .scale12 (planes 2 2 4 4) (samples16 0x100 [0, 4096, 1, 2]) (0 : Nat) (1 : Nat) :=
  ⟨by decide +kernel, by decide +kernel, by decide +kernel, (by decide +kernel : 0 < srcHeight (planes 2 2 4 4)),
    by decide +kernel, by decide +kernel⟩

theorem witness_PathsRefuseOutsidePreconditions :
    (PathCode.down2 = .up2Linear12 ∨ PathCode.down2 = .up2Bilinear12 → ScaleOp.scale8 = .scale12) ∧
    exactRatio .down2 (planes 4 4 3 2) = false ∧ pathReady .down2 .scale8 (planes 4 4 2 2) .none Config.default = true ∧
    undisturbed State.reset = true ∧
    pathReady .down2 .scale8 { planes 4 4 2 2 with dstBase := 0x100#64 } .none Config.default = true ∧
    postCheck Config.default .scale8 { planes 4 4 2 2 with dstBase := 0x100#64 } .down2 = .fails .overlap := by
  decide +kernel

theorem witness_CommandsAreRepeatable :
    let s : State := running 1#4 (planes 2 1 2 1) [(0x100, 7#8), (0x101, 9#8)]
    let t : State := { running 1#4 (planes 2 1 2 1) [(0x100, 7#8), (0x101, 9#8), (0x9000, 5#8)] with srcW := 3#32 }
    undisturbed s = true ∧ undisturbed t = true ∧ Memory.wf s.mem = true ∧ Memory.wf t.mem = true ∧
    s.cfg = t.cfg ∧ commandPlanes s = commandPlanes t ∧ s.mem ≠ t.mem ∧
    ∀ a : Nat, inSpans (srcSpans .scale8 (commandPlanes s)) a = true → Memory.read s.mem a = Memory.read t.mem a := by
  refine ⟨rfl, rfl, by decide, by decide, rfl, rfl, by decide, fun a ha => ?_⟩
  have hs : srcSpans .scale8 (planes 2 1 2 1) = [(256, 258)] := by decide +kernel
  change inSpans (srcSpans .scale8 (planes 2 1 2 1)) a = true at ha
  simp [hs, inSpans] at ha
  obtain rfl | rfl : a = 256 ∨ a = 257 := by omega
  · decide
  · decide

theorem witness_VerticalMirrorReversesRows :
    let s : State := running 1#4 (planes 1 (-2) 1 3) [(0x100, 7#8), (0x101, 9#8)]
    let t : State := running 1#4 (planes 1 2 1 3) [(0x100, 9#8), (0x101, 7#8)]
    undisturbed s = true ∧ undisturbed t = true ∧ Memory.wf s.mem = true ∧ Memory.wf t.mem = true ∧ s.cfg = t.cfg ∧
    (commandPlanes s).srcH.toInt < 0 ∧ commandPlanes t = { commandPlanes s with srcH := -(commandPlanes s).srcH } ∧
    preCheck s.cfg .scale8 (commandPlanes s) = none ∧
    postCheck s.cfg .scale8 (commandPlanes s) (dispatch .scale8 (commandPlanes s) .none).path = .runs ∧
    ∀ r c : Nat, r < srcHeight (commandPlanes s) → c < srcWidth (commandPlanes s) →
      srcSample .scale8 (commandPlanes t) t.mem ((srcHeight (commandPlanes s) - 1 - r : Nat) : Int) c =
        srcSample .scale8 { commandPlanes s with srcH := -(commandPlanes s).srcH } s.mem r c := by
  refine ⟨rfl, rfl, by decide, by decide, rfl, by decide +kernel, by decide +kernel, by decide +kernel, by decide +kernel,
    fun r c hr hc => ?_⟩
  have h : ∀ r, r < srcHeight (planes 1 (-2) 1 3) → ∀ c, c < srcWidth (planes 1 (-2) 1 3) →
      srcSample .scale8 (planes 1 2 1 3) [(0x100, 9#8), (0x101, 7#8)]
        ((srcHeight (planes 1 (-2) 1 3) - 1 - r : Nat) : Int) c =
      srcSample .scale8 { planes 1 (-2) 1 3 with srcH := -(planes 1 (-2) 1 3).srcH } [(0x100, 7#8), (0x101, 9#8)] r c := by
    decide +kernel
  exact h r hr c hc

-- The divisors where the clauses meet: 0, 1, 2; the sign of d: 0 and -1.
theorem witness_FixedPointHelpers :
    1 ≤ (1 : Nat) ∧ (0 : Nat) = 0 ∧ (2 ≤ (2 : Nat) ∧ 2 ≤ (2 : Nat)) ∧ (1 : Nat) ≤ 1 ∧ (0 : Int) ≤ 0 ∧ (-1 : Int) < 0 := by
  decide

theorem witness_FixedDivEndpoints :
    (1 ≤ (32768 : Nat) ∧ (32768 : Nat) ≤ 32768 ∧ ¬ ((32768 : Nat) = 32768 ∧ (2 : Nat) = 1)) ∧
    (2 ≤ (2 : Nat) ∧ 2 ≤ (2 : Nat)) ∧ (2 ≤ (2 : Nat) ∧ (2 : Nat) < 32768 ∧ (32768 : Nat) ≤ 32768) := by decide

-- The two clauses on a destination height of 0 exclude each other: Bilinear on a negative height has no division by it.
theorem witness_SlopeByMode :
    (1 ≤ (32768 : Int) ∧ 1 ≤ (1 : Int)) ∧
    ((1 : Int) = 0 ∨ ((0 : Int) = 0 ∧ (FilterMode.bilinear ≠ .bilinear ∨ 0 ≤ (0 : Int)))) ∧
    ¬ ((1 : Int) = 0 ∨ ((0 : Int) = 0 ∧ (FilterMode.bilinear ≠ .bilinear ∨ 0 ≤ (-1 : Int)))) ∧
    ¬ ((-1 : Int) = 0 ∨ ((1 : Int) = 0 ∧ (FilterMode.box ≠ .bilinear ∨ 0 ≤ (0 : Int)))) := by decide

theorem witness_SlopeStaysInside :
    1 ≤ (32768 : Int) ∧ (32768 : Int) ≤ 32768 ∧ (0 : Int) ≤ 0 ∧ (0 : Int) < 1 := by decide

theorem witness_SelectorFollowsTheSteps : (-4 : Int) ≠ 0 ∧ (-1 : Int) ≠ 0 ∧ 1 ≤ (1 : Int) := by decide

theorem witness_ReducerLaws : (-4 : Int) ≠ 0 ∧ (1 : Int) ≠ 0 ∧ 1 ≤ (1 : Int) := by decide

theorem witness_ReducerLaws_modes :
    reduce 5 5 2 2 .box = .box ∧ reduce 4 4 2 2 .box = .bilinear ∧ reduce 4 1 8 1 .bilinear = .linear := by
  decide +kernel

-- One request for each path (R156 and 95_test_vectors.md section 3).
theorem witness_ReachablePairs :
    (select 4 4 4 4 .box).path = .copy ∧ (select 4 4 4 2 .bilinear).path = .vertical ∧
    (select 8 8 6 6 .box).path = .down34 ∧ (select 4 4 2 2 .box).path = .down2 ∧ (select 16 16 6 6 .box).path = .down38 ∧
    (select 16 16 4 4 .box).path = .down4 ∧ (select 16 16 5 5 .box).path = .box ∧
    (select 4 3 8 3 .bilinear).path = .up2Linear ∧ (select 4 4 7 8 .bilinear).path = .up2Bilinear ∧
    (select 4 4 6 9 .bilinear).path = .bilinearUp ∧ (select 8 8 6 5 .bilinear).path = .bilinearDown ∧
    (select 8 8 5 5 .none).path = .simple ∧ (select12 4 3 8 3 .bilinear).path = .up2Linear12 ∧
    (select12 4 4 8 8 .bilinear).path = .up2Bilinear12 := by
  decide +kernel

theorem witness_MirroredSourceTakesGenericPaths :
    (-4 : Int) < 0 ∧ (4 : Int) ≠ 0 ∧ 1 ≤ (2 : Int) ∧ (select (-4) 4 2 2 .box).path = .bilinearDown := by decide +kernel

theorem witness_HalfAndQuarterKernels :
    2 * 2 ≤ [1, 2, 3, 4].length ∧ 4 * 1 ≤ [1, 2, 3, 4].length := by decide

theorem witness_ThreeQuarterKernels : 4 * 1 ≤ [1, 2, 3, 4].length ∧ 0 < 1 := by decide

theorem witness_ThreeEighthsKernels : 8 * 1 ≤ [1, 2, 3, 4, 5, 6, 7, 8].length := by decide

theorem witness_LinearDoublingKernels :
    (1 + 1 ≤ [0, 100].length ∨ (1 : Nat) = 0) ∧ 1 + 2 * 1 ≤ [9, 9, 9].length ∧
    (0 + 1 ≤ ([] : Row).length ∨ (0 : Nat) = 0) ∧ 1 ≤ 3 ∧ (3 + 1) / 2 ≤ [0, 100].length := by decide

theorem witness_BilinearDoublingKernels :
    ((1 + 1 ≤ [0, 16].length ∧ 1 + 1 ≤ [32, 48].length) ∨ (1 : Nat) = 0) ∧ 0 + 2 * 1 ≤ [0, 0].length ∧
    1 ≤ 4 ∧ (4 + 1) / 2 ≤ [0, 16].length := by decide

theorem witness_ColumnKernels :
    (∀ j : Nat, j < 2 → 0 ≤ (0x8000 : Int) + j * 0x8000 ∧ ((0x8000 : Int) + j * 0x8000) / 65536 < [10, 20].length) ∧
    (∀ j : Nat, j < 2 → ((0x8000 : Int) + j * 0x8000) % 65536 ≠ 0 →
      ((0x8000 : Int) + j * 0x8000) / 65536 + 1 < [10, 20].length) ∧
    (∀ j : Nat, j < 1 → ((0x101FF : Int) + j * 1) % 65536 / 512 ≠ 0 → ((0x101FF : Int) + j * 1) / 65536 + 1 < [10, 20].length) ∧
    Config.default.blend8 = .bits7 := by decide

theorem witness_ArithmeticKernels :
    1 ≤ [100].length ∧ (1 ≤ [200].length ∨ (64#8) = 0#8) ∧ (1 ≤ ([] : Row).length ∨ (0#8) = 0#8) := by decide

theorem witness_BoxAccumulateKernels :
    2 ≤ [3, 4].length ∧ 2 ≤ [1, 2].length ∧ 1 ≤ 2 ∧ (0 : Int) < 0x20000 ∧ (0 : Int) ≤ 0 ∧
    (∀ j : Nat, j < 2 → ((0 : Int) + j * 0x20000) / 65536 +
      ((max 1 (((0 : Int) + (j + 1 : Nat) * 0x20000) / 65536 - ((0 : Int) + j * 0x20000) / 65536).toNat : Nat) : Int)
        ≤ [4, 6, 8, 10].length) ∧
    ((0 : Int) ≤ 0 ∧ (0 : Int) % 65536 = 0 ∧
      ∀ j : Nat, j < 2 → 0 ≤ (0x10000 : Int) / 65536 + (j : Int) ∧ (0x10000 : Int) / 65536 + (j : Int) < [4, 6, 8].length) ∧
    ((-0x8000 : Int) < 0 ∧ (-0x8000 : Int) % 65536 ≠ 0 ∧
      ∀ j : Nat, j < 2 → 0 ≤ ((0x8000 : Int) + j * -0x8000) / 65536 ∧
        ((0x8000 : Int) + j * -0x8000) / 65536 +
          max 1 (((0x8000 : Int) + (j + 1 : Nat) * -0x8000) / 65536 - ((0x8000 : Int) + j * -0x8000) / 65536) ≤
            [4, 6].length) := by decide

theorem witness_KernelsAnswerInRangeOrRaise :
    (kernelWidth (.kDown2Point .w8 [1, 255] 1) = some .w8 ∧ (Instr.kDown2Point .w8 [1, 255] 1).wf = true) ∧
    (Instr.kAddrow .w8 [255] [65535] 1).wf = true ∧
    -- a row one column short, for each width that a clause names
    [1].length < 2 * 1 ∧ [1, 2].length + 1 < 4 * 1 ∧ [1, 2, 3].length < 4 * 1 ∧ [1, 2, 3].length < 4 * (0 + 1) ∧
    [1, 2, 3, 4, 5, 6].length + 1 < 8 * 1 ∧ [1, 2, 3, 4, 5, 6, 7].length < 8 * 1 ∧ [1].length < (3 + 1) / 2 ∧
    (1 ≤ 1 ∧ [1].length ≤ 1 ∧ [0].length < 0 + 2 * 1) ∧ ((1#8 : BitVec 8) ≠ 0#8 ∧ [].length (α := Nat) < 1) ∧
    -- a coordinate one step outside the row, on each side, and a box one column past its end
    0 < 1 ∧ (-1 + 0 * 0 : Int) / 65536 < 0 ∧ ([1].length : Int) ≤ (65536 : Int) / 65536 ∧
    ((0x200 : Int) % 65536 / 512 ≠ 0 ∧ ([1].length : Int) ≤ (0x200 : Int) / 65536 + 1) ∧
    ([1].length : Int) < (0 : Int) / 65536 + 0 * 2 + max 1 (0x20000 / 65536) := by decide

-- The states of the raise's own clauses: those of the reset input, which abandons a command too.
theorem witness_KernelsAnswerInRangeOrRaise_raise :
    State.reset.phase = .idle ∧ Memory.wf (running 1#4 (planes 4 4 2 2) []).mem = true ∧
    (∃ c, (running 1#4 (planes 4 4 2 2) []).phase = .busy c false ∧ latchedScaleOp c = some .scale8 ∧
      inSpans (dstSpans .scale8 c.planes) (0xFFF : Nat) = false ∧ inSpans (dstSpans .scale8 c.planes) (0x1003 : Nat) = true ∧
      memValid Config.default 0x1003 = true) ∧
    (∃ c, (running 0#4 (planes 4 4 2 2) []).phase = .busy c false ∧ latchedScaleOp c = none) :=
  ⟨rfl, rfl, witness_ResetInputEffect.2.2.2, witness_ResetInputEffect.2.2.1⟩

theorem witness_PointPathsEqualSimple :
    pathRuns .down2 .scale8 (planes 4 4 2 2) .none Config.default = true ∧
    pathRuns .down4 .scale8 (planes 4 4 1 1) .none Config.default = true ∧
    pathRuns .down34 .scale8 (planes 4 4 3 3) .none Config.default = true ∧
    pathRuns .copy .scale8 (planes 2 1 2 1) .none Config.default = true ∧
    (planes 2 1 2 1).dstW = (planes 2 1 2 1).srcW ∧
    Memory.wf pair8.mem = true ∧ pathRuns .copy .scale8 (planes 2 2 2 2) .bilinear Config.default = true ∧
    dstHeight (planes 2 2 2 2) = srcHeight (planes 2 2 2 2) ∧ 0 + 1 < dstHeight (planes 2 2 2 2) := by
  decide +kernel

theorem witness_BoxPathsEqualFastPaths :
    Config.default.boxRound = .nearest ∧ pathRuns .box .scale8 (planes 4 4 2 2) .box Config.default = true ∧
    pathRuns .down2 .scale8 (planes 4 4 2 2) .bilinear Config.default = true ∧
    pathRuns .box .scale16 (planes 4 4 1 1) .box Config.default = true ∧
    pathRuns .down4 .scale16 (planes 4 4 1 1) .box Config.default = true := by
  decide +kernel

theorem witness_CopyEqualsVerticalAtRatioOne :
    pathRuns .copy .scale8 (planes 1 2 1 2) .none Config.default = true ∧ (planes 1 2 1 2).dstW = (planes 1 2 1 2).srcW ∧
    dstHeight (planes 1 2 1 2) = srcHeight (planes 1 2 1 2) := by
  decide +kernel

end Sys2Proof.Tests
end

/-! PROOFS. What a row kernel answers and when it raises (R16, R67): every kernel is taken apart once, read by read, into
what it says of its samples and of the rows it was given. -/

namespace Sys2Proof.Proofs.KernelAnswers

open Sys2Proof Sys2Proof.Machine

/-! ### Answers: a computation that raises nothing but ERR_OOB -/

/-- The computation answers a value of the property, or raises ERR_OOB. -/
def Answers {α : Type} (P : α → Prop) (r : Res α) : Prop :=
  (∃ v, r = .ok v ∧ P v) ∨ r = .error .oob

section
variable {α β : Type} {P : α → Prop} {Q : β → Prop}

theorem Answers.ok {v : α} (h : P v) : Answers P (.ok v) := .inl ⟨v, rfl, h⟩

theorem Answers.oob : Answers P (.error .oob) := .inr rfl

theorem Answers.bind {r : Res α} {f : α → Res β} (hr : Answers P r) (hf : ∀ v, P v → Answers Q (f v)) :
    Answers Q (r >>= f) := by
  rcases hr with ⟨v, rfl, hv⟩ | rfl
  · exact hf v hv
  · exact .oob

theorem Answers.mono {P' : α → Prop} {r : Res α} (hr : Answers P r) (h : ∀ v, P v → P' v) : Answers P' r :=
  hr.imp_left fun ⟨v, hv, hp⟩ => ⟨v, hv, h v hp⟩

/-- What an internal operation does with a computation's answer (log 5). -/
theorem Answers.answer {r : Res α} (hr : Answers P r) (g : α → OpResult) (s : State) :
    (∃ v, answer (r.map g) s = .next { s with result := g v } ∧ P v) ∨
    answer (r.map g) s = .next (raiseWhileRunning .oob s) := by
  rcases hr with ⟨v, rfl, hv⟩ | rfl
  · exact .inl ⟨v, rfl, hv⟩
  · exact .inr rfl

/-- A computation whose answer would need something false raises ERR_OOB (R67). -/
theorem Answers.raises {A : α → Prop} {B : Prop} {r : Res α} (hr : Answers (fun v => A v ∧ B) r) (hB : ¬ B)
    (g : α → OpResult) (s : State) : Machine.answer (r.map g) s = .next (raiseWhileRunning .oob s) := by
  rcases hr.answer g s with ⟨_, _, _, hb⟩ | h
  · exact absurd hb hB
  · exact h

end

/-! ### Rows whose samples are at most M -/

/-- Every sample of the row is at most M. -/
def AtMost (M : Nat) (l : Row) : Prop := ∀ v ∈ l, v ≤ M

theorem rowOk_iff_atMost (sw : SampleWidth) (l : Row) : rowOk sw l = true ↔ AtMost (maxSample sw) l := by
  simp [rowOk, AtMost]

theorem AtMost.mono {M M' : Nat} {l : Row} (h : AtMost M l) (hM : M ≤ M') : AtMost M' l :=
  fun v hv => (h v hv).trans hM

theorem atMost_sum (l : Row) : AtMost l.sum l := fun _ hv => List.le_sum_of_mem hv

/-- Rows of any samples have a common bound, so that a bound on the samples is no condition of a raise (log 23). -/
theorem exists_atMost (s t u v : Row) : ∃ M, AtMost M s ∧ AtMost M t ∧ AtMost M u ∧ AtMost M v :=
  ⟨s.sum + t.sum + u.sum + v.sum, (atMost_sum s).mono (by omega), (atMost_sum t).mono (by omega),
    (atMost_sum u).mono (by omega), (atMost_sum v).mono (by omega)⟩

theorem AtMost.replicate_zero (M n : Nat) : AtMost M (List.replicate n 0) := by
  intro v hv
  rw [List.eq_of_mem_replicate hv]
  exact Nat.zero_le M

theorem AtMost.set {M : Nat} {l : Row} (h : AtMost M l) (i : Nat) {v : Nat} (hv : v ≤ M) : AtMost M (l.set i v) := by
  intro w hw
  rcases List.mem_or_eq_of_mem_set hw with hw | rfl
  · exact h w hw
  · exact hv

/-! ### The reads and writes of a kernel -/

section
variable {M : Nat} {s : Row}

/-- A read that answers lies in the row (R67). -/
theorem listRow_answers (hs : AtMost M s) (i : Int) :
    Answers (fun v => v ≤ M ∧ 0 ≤ i ∧ i < s.length) (listRow s i) := by
  rcases listRow_cases s i with ⟨k, rfl, hk, h⟩ | h <;> rw [h]
  · exact .ok ⟨hs _ (List.getElem_mem hk), by omega, by omega⟩
  · exact .oob

/-- A run of reads that answers lies in the row. -/
theorem sumRun_answers (hs : AtMost M s) (c : Int) (k : Nat) :
    Answers (fun v => v ≤ k * M ∧ (0 < k → 0 ≤ c ∧ c + k ≤ s.length)) (sumRun (listRow s) c k) := by
  induction k with
  | zero => exact .ok ⟨Nat.zero_le _, by omega⟩
  | succ k ih =>
    refine ih.bind fun a ⟨ha, _⟩ => (listRow_answers hs _).bind fun b ⟨hb, _, _⟩ => .ok ⟨?_, by omega⟩
    rw [Nat.succ_mul]
    omega

/-- A write that answers lies in the output row (log 12). -/
theorem setAt_answers {d : Row} (hd : AtMost M d) (i : Nat) {v : Nat} (hv : v ≤ M) :
    Answers (fun d' => AtMost M d' ∧ d'.length = d.length ∧ i < d.length) (setAt d i v) := by
  unfold setAt
  split
  · exact .ok ⟨hd.set i hv, List.length_set, ‹_›⟩
  · exact .oob

end

/-- A row answers when every index answers: its samples are the samples of the indices, and what each index says holds. -/
theorem rowOf_answers {A : Nat → Prop} {b : Nat → Prop} {n : Nat} {f : Nat → Res Nat}
    (hf : ∀ i, Answers (fun v => A v ∧ b i) (f i)) :
    Answers (fun d => (∀ v ∈ d, A v) ∧ ∀ i < n, b i) (rowOf n f) := by
  have value {i v} (h : f i = .ok v) : A v ∧ b i := by
    rcases hf i with ⟨v', hv', hp⟩ | he
    · rw [h] at hv'
      exact Except.ok.inj hv' ▸ hp
    · rw [h] at he
      cases he
  rcases rowOf_cases f n with ⟨d, hd, hlen, hget⟩ | ⟨k, e, _, hk, hrow, _⟩
  · rw [hd]
    refine .ok ⟨fun v hv => ?_, fun i hi => ?_⟩
    · obtain ⟨k, hk, rfl⟩ := List.getElem_of_mem hv
      obtain ⟨v, hfv, hdv⟩ := hget k (by omega)
      rw [List.getElem?_eq_getElem hk] at hdv
      exact Option.some.inj hdv ▸ (value hfv).1
    · obtain ⟨v, hfv, _⟩ := hget i hi
      exact (value hfv).2
  · rcases hf k with ⟨v, hv, _⟩ | he
    · rw [hk] at hv
      cases hv
    · rw [hrow, Except.error.inj (hk.symm.trans he)]
      exact .oob

/-- A row of samples of the bound, with what its indices say put together. -/
theorem rowOf_atMost {M : Nat} {b : Nat → Prop} {B : Prop} {n : Nat} {f : Nat → Res Nat}
    (hf : ∀ i, Answers (fun v => v ≤ M ∧ b i) (f i)) (hB : (∀ i < n, b i) → B) :
    Answers (fun d => AtMost M d ∧ B) (rowOf n f) :=
  (rowOf_answers hf).mono fun _ ⟨hd, hb⟩ => ⟨hd, hB hb⟩

/-- What the last index of a row says, where the row has one. -/
theorem last_of_forall {b : Nat → Prop} {n : Nat} (h : ∀ i < n, b i) : n = 0 ∨ b (n - 1) := by
  rcases Nat.eq_zero_or_pos n with h0 | hn
  · exact .inl h0
  · exact .inr (h (n - 1) (by omega))

/-! ### The exact-ratio downscale kernels (R162 to R173) -/

section
variable {M : Nat} {s t u v : Row}

theorem down2Point_answers (hs : AtMost M s) (n : Nat) :
    Answers (fun d => AtMost M d ∧ 2 * n ≤ s.length) (down2Point (listRow s) n) :=
  rowOf_atMost (fun i => listRow_answers hs (2 * i + 1)) fun h => by
    have := last_of_forall h
    omega

theorem down2Linear_answers (hs : AtMost M s) (n : Nat) :
    Answers (fun d => AtMost M d ∧ 2 * n ≤ s.length) (down2Linear (listRow s) n) := by
  refine rowOf_atMost (b := fun i => 2 * i + 2 ≤ s.length) (fun i => ?_) fun h => ?_
  · exact (listRow_answers hs _).bind fun a ⟨ha, _⟩ => (listRow_answers hs _).bind fun b ⟨hb, _⟩ =>
      .ok ⟨by omega, by omega⟩
  · have := last_of_forall h
    omega

theorem down2Box_answers (hs : AtMost M s) (ht : AtMost M t) (n : Nat) :
    Answers (fun d => AtMost M d ∧ 2 * n ≤ s.length ∧ 2 * n ≤ t.length) (down2Box (listRow s) (listRow t) n) := by
  refine rowOf_atMost (b := fun i => 2 * i + 2 ≤ s.length ∧ 2 * i + 2 ≤ t.length) (fun i => ?_) fun h => ?_
  · exact (listRow_answers hs _).bind fun a ⟨ha, _⟩ => (listRow_answers hs _).bind fun b ⟨hb, _⟩ =>
      (listRow_answers ht _).bind fun c ⟨hc, _⟩ => (listRow_answers ht _).bind fun d ⟨hd, _⟩ =>
      .ok ⟨by omega, by omega⟩
  · have := last_of_forall h
    omega

theorem down4Point_answers (hs : AtMost M s) (n : Nat) :
    Answers (fun d => AtMost M d ∧ 4 * n ≤ s.length + 1) (down4Point (listRow s) n) :=
  rowOf_atMost (fun i => listRow_answers hs (4 * i + 2)) fun h => by
    have := last_of_forall h
    omega

theorem down4Box_answers (hs : AtMost M s) (ht : AtMost M t) (hu : AtMost M u) (hv : AtMost M v) (n : Nat) :
    Answers (fun d => AtMost M d ∧ 4 * n ≤ s.length ∧ 4 * n ≤ t.length ∧ 4 * n ≤ u.length ∧ 4 * n ≤ v.length)
      (down4Box (listRow s) (listRow t) (listRow u) (listRow v) n) := by
  refine rowOf_atMost (b := fun i => 4 * i + 4 ≤ s.length ∧ 4 * i + 4 ≤ t.length ∧ 4 * i + 4 ≤ u.length ∧
    4 * i + 4 ≤ v.length) (fun i => ?_) fun h => ?_
  · exact (sumRun_answers hs _ _).bind fun a ⟨ha, _⟩ => (sumRun_answers ht _ _).bind fun b ⟨hb, _⟩ =>
      (sumRun_answers hu _ _).bind fun c ⟨hc, _⟩ => (sumRun_answers hv _ _).bind fun d ⟨hd, _⟩ =>
      .ok ⟨by omega, by omega⟩
  · have := last_of_forall h
    omega

theorem down34Point_answers (hs : AtMost M s) (n : Nat) :
    Answers (fun d => AtMost M d ∧ (n % 3 = 0 → 4 * (n / 3) ≤ s.length)) (down34Point (listRow s) n) := by
  refine rowOf_atMost (b := fun i => i % 3 = 2 → 4 * (i / 3) + 4 ≤ s.length) (fun i => ?_) fun h => ?_
  · dsimp only
    split <;> exact (listRow_answers hs _).mono fun a ⟨ha, _⟩ => ⟨ha, by omega⟩
  · have := last_of_forall h
    omega

/-- Component k of H reads up to column 4g + 1, 4g + 2 or 4g + 3 (R168). -/
theorem down34H_answers (hs : AtMost M s) (g k : Nat) :
    Answers (fun v => v ≤ M ∧ (2 ≤ k → 4 * (g + 1) ≤ s.length)) (down34H (listRow s) g k) := by
  unfold down34H
  split <;>
    exact (listRow_answers hs _).bind fun a ⟨ha, _⟩ => (listRow_answers hs _).bind fun b ⟨hb, _⟩ =>
      .ok ⟨by omega, by omega⟩

theorem rowOf_down34H_answers (hs : AtMost M s) (g : Nat) :
    Answers (fun d => AtMost M d ∧ 4 * (g + 1) ≤ s.length) (rowOf 3 (down34H (listRow s) g)) :=
  rowOf_atMost (down34H_answers hs g) fun h => h 2 (by omega) le_rfl

/-- The two box kernels of 3/4 join a component of each row by a mean that stays under the bound (R169, R170). -/
theorem rowOf_down34H_pair_answers {f : Nat → Nat → Nat} (hf : ∀ a b, a ≤ M → b ≤ M → f a b ≤ M)
    (hs : AtMost M s) (ht : AtMost M t) (n : Nat) :
    Answers (fun d => AtMost M d ∧ (n % 3 = 0 → 4 * (n / 3) ≤ s.length ∧ 4 * (n / 3) ≤ t.length))
      (rowOf n fun i => do
        let a ← down34H (listRow s) (i / 3) (i % 3)
        let b ← down34H (listRow t) (i / 3) (i % 3)
        .ok (f a b)) := by
  refine rowOf_atMost (b := fun i => 2 ≤ i % 3 → 4 * (i / 3 + 1) ≤ s.length ∧ 4 * (i / 3 + 1) ≤ t.length)
    (fun i => ?_) fun h => ?_
  · exact (down34H_answers hs _ _).bind fun a ⟨ha, hsl⟩ => (down34H_answers ht _ _).bind fun b ⟨hb, htl⟩ =>
      .ok ⟨hf a b ha hb, fun hk => ⟨hsl hk, htl hk⟩⟩
  · have := last_of_forall h
    omega

theorem down34Box0_answers (hs : AtMost M s) (ht : AtMost M t) (n : Nat) :
    Answers (fun d => AtMost M d ∧ (n % 3 = 0 → 4 * (n / 3) ≤ s.length ∧ 4 * (n / 3) ≤ t.length))
      (down34Box0 (listRow s) (listRow t) n) :=
  rowOf_down34H_pair_answers (fun _ _ _ _ => by omega) hs ht n

theorem down34Box1_answers (hs : AtMost M s) (ht : AtMost M t) (n : Nat) :
    Answers (fun d => AtMost M d ∧ (n % 3 = 0 → 4 * (n / 3) ≤ s.length ∧ 4 * (n / 3) ≤ t.length))
      (down34Box1 (listRow s) (listRow t) n) :=
  rowOf_down34H_pair_answers (fun _ _ _ _ => by omega) hs ht n

theorem down38Point_answers (hs : AtMost M s) (n : Nat) :
    Answers (fun d => AtMost M d ∧ (n % 3 = 0 → 8 * (n / 3) ≤ s.length + 1)) (down38Point (listRow s) n) := by
  refine rowOf_atMost (b := fun i => i % 3 = 2 → 8 * (i / 3) + 7 ≤ s.length) (fun i => ?_) fun h => ?_
  · dsimp only
    split <;> exact (listRow_answers hs _).mono fun a ⟨ha, _⟩ => ⟨ha, by omega⟩
  · have := last_of_forall h
    omega

/-- A box of a group of eight reads three columns for outputs 0 and 1, and the last two for output 2 (R172, R173). -/
theorem down38Run_answers (hs : AtMost M s) (i : Nat) :
    Answers (fun v => (v ≤ 3 * M ∧ (i % 3 = 2 → v ≤ 2 * M)) ∧ (i % 3 = 2 → 8 * (i / 3) + 8 ≤ s.length))
      (sumRun (listRow s) (8 * (i / 3 : Nat) + (down38Cols (i % 3)).1) (down38Cols (i % 3)).2) := by
  unfold down38Cols
  split <;> exact (sumRun_answers hs _ _).mono fun v ⟨hv, _⟩ => ⟨⟨by omega, by omega⟩, by omega⟩

/-- The truncated reciprocals of R172 keep a box mean under the bound. -/
theorem down38Box3_answers (hs : AtMost M s) (ht : AtMost M t) (hu : AtMost M u) (n : Nat) :
    Answers (fun d => AtMost M d ∧
        (n % 3 = 0 → 8 * (n / 3) ≤ s.length ∧ 8 * (n / 3) ≤ t.length ∧ 8 * (n / 3) ≤ u.length))
      (down38Box3 (listRow s) (listRow t) (listRow u) n) := by
  refine rowOf_atMost (b := fun i => i % 3 = 2 → 8 * (i / 3) + 8 ≤ s.length ∧ 8 * (i / 3) + 8 ≤ t.length ∧
    8 * (i / 3) + 8 ≤ u.length) (fun i => ?_) fun h => ?_
  · refine (down38Run_answers hs i).bind fun a ⟨ha, _⟩ => (down38Run_answers ht i).bind fun b ⟨hb, _⟩ =>
      (down38Run_answers hu i).bind fun c ⟨hc, _⟩ => .ok ⟨?_, by omega⟩
    split <;> omega
  · have := last_of_forall h
    omega

/-- The truncated reciprocals of R173 keep a box mean under the bound. -/
theorem down38Box2_answers (hs : AtMost M s) (ht : AtMost M t) (n : Nat) :
    Answers (fun d => AtMost M d ∧ (n % 3 = 0 → 8 * (n / 3) ≤ s.length ∧ 8 * (n / 3) ≤ t.length))
      (down38Box2 (listRow s) (listRow t) n) := by
  refine rowOf_atMost (b := fun i => i % 3 = 2 → 8 * (i / 3) + 8 ≤ s.length ∧ 8 * (i / 3) + 8 ≤ t.length)
    (fun i => ?_) fun h => ?_
  · refine (down38Run_answers hs i).bind fun a ⟨ha, _⟩ => (down38Run_answers ht i).bind fun b ⟨hb, _⟩ =>
      .ok ⟨?_, by omega⟩
    split <;> omega
  · have := last_of_forall h
    omega

end

/-! ### The exact 2x upscale kernels (R174 to R178) -/

section
variable {M : Nat} {s t : Row}

theorem up2LinearCore_answers (hs : AtMost M s) {d : Row} (hd : AtMost M d) (o p : Nat) :
    Answers (fun d' => (AtMost M d' ∧ d'.length = d.length) ∧ (1 ≤ p → p < s.length ∧ o + 2 * p ≤ d.length))
      (up2LinearCore (listRow s) p d o) := by
  induction p with
  | zero => exact .ok ⟨⟨hd, rfl⟩, by omega⟩
  | succ k ih =>
    refine ih.bind fun d' ⟨⟨hd', _⟩, _⟩ => (listRow_answers hs _).bind fun a ⟨ha, _⟩ =>
      (listRow_answers hs _).bind fun b ⟨hb, _⟩ =>
      (setAt_answers hd' _ (by omega)).bind fun d₁ ⟨hd₁, _⟩ =>
      (setAt_answers hd₁ _ (by omega)).mono fun d₂ ⟨hd₂, _⟩ => ⟨⟨hd₂, by omega⟩, by omega⟩

theorem up2Linear_answers (hs : AtMost M s) (n : Nat) :
    Answers (fun d => AtMost M d ∧ (n + 1) / 2 ≤ s.length) (up2Linear (listRow s) n) :=
  (listRow_answers hs _).bind fun _ ⟨ha, _⟩ =>
    (setAt_answers (.replicate_zero M n) _ ha).bind fun _ ⟨hd, _⟩ =>
    (up2LinearCore_answers hs hd _ _).bind fun _ ⟨⟨hd', _⟩, _⟩ =>
    (listRow_answers hs _).bind fun _ ⟨hb, _⟩ =>
    (setAt_answers hd' _ hb).mono fun _ ⟨hd'', _⟩ => ⟨hd'', by omega⟩

theorem up2BilinearCore_answers (hs : AtMost M s) (ht : AtMost M t) {d e : Row} (hd : AtMost M d) (he : AtMost M e)
    (o p : Nat) :
    Answers (fun de => ((AtMost M de.1 ∧ AtMost M de.2) ∧ de.1.length = d.length ∧ de.2.length = e.length) ∧
        (1 ≤ p → p < s.length ∧ p < t.length ∧ o + 2 * p ≤ d.length ∧ o + 2 * p ≤ e.length))
      (up2BilinearCore (listRow s) (listRow t) p (d, e) o) := by
  induction p with
  | zero => exact .ok ⟨⟨⟨hd, he⟩, rfl, rfl⟩, by omega⟩
  | succ k ih =>
    refine ih.bind fun (d', e') ⟨⟨⟨hd', he'⟩, _, _⟩, _⟩ => ?_
    refine (listRow_answers hs _).bind fun a ⟨ha, _⟩ => (listRow_answers hs _).bind fun b ⟨hb, _⟩ =>
      (listRow_answers ht _).bind fun c ⟨hc, _⟩ => (listRow_answers ht _).bind fun f ⟨hf, _⟩ => ?_
    refine (setAt_answers hd' _ (by omega)).bind fun d₁ ⟨hd₁, _⟩ =>
      (setAt_answers hd₁ _ (by omega)).bind fun d₂ ⟨hd₂, _⟩ =>
      (setAt_answers he' _ (by omega)).bind fun e₁ ⟨he₁, _⟩ =>
      (setAt_answers he₁ _ (by omega)).bind fun e₂ ⟨he₂, _⟩ => .ok ⟨⟨⟨hd₂, he₂⟩, ?_, ?_⟩, ?_⟩ <;>
    dsimp only at * <;> omega

theorem up2Bilinear_answers (hs : AtMost M s) (ht : AtMost M t) (n : Nat) :
    Answers (fun de => (AtMost M de.1 ∧ AtMost M de.2) ∧ (n + 1) / 2 ≤ s.length ∧ (n + 1) / 2 ≤ t.length)
      (up2Bilinear (listRow s) (listRow t) n) :=
  (listRow_answers hs _).bind fun _ ⟨ha, _⟩ => (listRow_answers ht _).bind fun _ ⟨hc, _⟩ =>
    (setAt_answers (.replicate_zero M n) _ (by omega)).bind fun _ ⟨hd, _⟩ =>
    (setAt_answers (.replicate_zero M n) _ (by omega)).bind fun _ ⟨he, _⟩ =>
    (up2BilinearCore_answers hs ht hd he _ _).bind fun _ ⟨⟨⟨hd', he'⟩, _⟩, _⟩ =>
    (listRow_answers hs _).bind fun _ ⟨hb, _⟩ => (listRow_answers ht _).bind fun _ ⟨hf, _⟩ =>
    (setAt_answers hd' _ (by omega)).bind fun _ ⟨hd'', _⟩ =>
    (setAt_answers he' _ (by omega)).bind fun _ ⟨he'', _⟩ => .ok ⟨⟨hd'', he''⟩, by omega, by omega⟩

end

/-! ### The column kernels and the vertical interpolator (R180 to R184) -/

section
variable {M : Nat} {s t : Row}

theorem wholePart_eq (c : Int) : wholePart c = c / 65536 := Int.shiftRight_eq_div_pow c 16

theorem colsPoint_answers (hs : AtMost M s) (n : Nat) (x dx : Int) :
    Answers (fun d => AtMost M d ∧ ∀ j < n, 0 ≤ (x + j * dx) / 65536 ∧ (x + j * dx) / 65536 < s.length)
      (colsPoint (listRow s) n x dx) :=
  rowOf_atMost (fun j => by simpa only [wholePart_eq] using listRow_answers hs (wholePart (x + j * dx))) id

/-- A blend of two samples with a weight of [0, 2^sh] does not pass the bound. -/
theorem blend_le {a b w : Int} {sh : Nat} (hsh : 1 ≤ sh) (hw0 : 0 ≤ w) (hw : w ≤ 2 ^ sh) (ha : a ≤ M)
    (hb : b ≤ M) : a + ((w * (b - a) + 2 ^ (sh - 1)) >>> sh) ≤ M := by
  obtain ⟨k, rfl⟩ : ∃ k, sh = k + 1 := ⟨sh - 1, by omega⟩
  have hpos : (0 : Int) < 2 ^ k := by positivity
  have hsum : w * (b - a) + 2 ^ k < (M - a + 1) * 2 ^ (k + 1) := by
    have h1 : w * (b - a) ≤ w * (M - a) := Int.mul_le_mul_of_nonneg_left (by omega) hw0
    have h2 : w * (M - a) ≤ 2 ^ (k + 1) * (M - a) := Int.mul_le_mul_of_nonneg_right hw (by omega)
    rw [pow_succ] at h2 ⊢
    linarith
  have := Int.ediv_lt_of_lt_mul (by positivity) hsum
  rw [Nat.add_sub_cancel, Int.shiftRight_eq_div_pow]
  push_cast
  omega

/-- A blend reads the right neighbour only for a weight that is not zero (D12). -/
theorem blendAt_answers (hs : AtMost M s) (xi : Int) {w : Int} {sh : Nat} (hsh : 1 ≤ sh) (hw0 : 0 ≤ w)
    (hw : w ≤ 2 ^ sh) :
    Answers (fun v => v ≤ M ∧ 0 ≤ xi ∧ xi < s.length ∧ (w ≠ 0 → xi + 1 < s.length))
      (blendAt (listRow s) xi w sh) := by
  refine (listRow_answers hs _).bind fun a ⟨ha, _⟩ => ?_
  split
  · exact .ok ⟨ha, by omega⟩
  · refine (listRow_answers hs _).bind fun b ⟨hb, _⟩ => .ok ⟨?_, by omega⟩
    have := blend_le (M := M) (a := a) (b := b) hsh hw0 hw (by omega) (by omega)
    omega

theorem colsBlend16_answers (hs : AtMost M s) (n : Nat) (x dx : Int) :
    Answers (fun d => AtMost M d ∧ ∀ j < n, 0 ≤ (x + j * dx) / 65536 ∧ (x + j * dx) / 65536 < s.length ∧
        ((x + j * dx) % 65536 ≠ 0 → (x + j * dx) / 65536 + 1 < s.length))
      (colsBlend16 (listRow s) n x dx) :=
  rowOf_atMost (fun j => by
    simpa only [wholePart_eq, fracPart] using
      blendAt_answers hs (wholePart (x + j * dx)) (w := fracPart (x + j * dx)) (sh := 16) (by omega)
        (Int.emod_nonneg _ (by omega)) (Int.emod_lt_of_pos _ (by omega)).le) id

/-- With 16-bit weights the 8-bit blend computes as K.COLS_BLEND16 does (R11). -/
theorem colsBlend8_bits16 (r : Reader) (n : Nat) (x dx : Int) :
    colsBlend8 .bits16 r n x dx = colsBlend16 r n x dx := rfl

theorem colsBlend8_answers (hs : AtMost M s) (bl : Blend8) (n : Nat) (x dx : Int) :
    Answers (fun d => AtMost M d ∧ ∀ j < n, 0 ≤ (x + j * dx) / 65536 ∧ (x + j * dx) / 65536 < s.length ∧
        ((if bl = .bits7 then (x + j * dx) % 65536 / 512 else (x + j * dx) % 65536) ≠ 0 →
          (x + j * dx) / 65536 + 1 < s.length))
      (colsBlend8 bl (listRow s) n x dx) := by
  cases bl with
  | bits16 => simpa [colsBlend8_bits16] using colsBlend16_answers hs n x dx
  | bits7 =>
    refine rowOf_atMost (fun j => ?_) id
    have hw : fracPart (x + j * dx) >>> (9 : Nat) = (x + j * dx) % 65536 / 512 := Int.shiftRight_eq_div_pow _ 9
    simpa [wholePart_eq, hw] using
      blendAt_answers hs (wholePart (x + j * dx)) (w := fracPart (x + j * dx) >>> (9 : Nat)) (sh := 7) (by omega)
        (by omega) (by omega)

/-- The interpolator reads the second row only for a weight that is not zero (R184). -/
theorem interp_answers (hs : AtMost M s) (ht : AtMost M t) (n : Nat) {f8 : Nat} (hf : f8 ≤ 256) :
    Answers (fun d => AtMost M d ∧ n ≤ s.length ∧ (f8 ≠ 0 → n ≤ t.length))
      (interp (listRow s) (listRow t) n f8) := by
  refine rowOf_atMost (b := fun i => i < s.length ∧ (f8 ≠ 0 → i < t.length)) (fun i => ?_) fun h => ?_
  · refine (listRow_answers hs _).bind fun a ⟨ha, _⟩ => ?_
    split
    · exact .ok ⟨ha, by omega⟩
    · refine (listRow_answers ht _).bind fun b ⟨hb, _⟩ => .ok ⟨?_, by omega⟩
      have h1 : a * (256 - f8) ≤ M * (256 - f8) := Nat.mul_le_mul_right _ ha
      have h2 : b * f8 ≤ M * f8 := Nat.mul_le_mul_right _ hb
      have h3 : M * (256 - f8) + M * f8 = M * 256 := by rw [← Nat.mul_add, Nat.sub_add_cancel hf]
      omega
  · have := last_of_forall h
    omega

end

/-! ### The box accumulator and the box division (R185 to R187) -/

theorem wrapAcc_wrapAcc (sw : SampleWidth) (v : Nat) : wrapAcc sw (wrapAcc sw v) = wrapAcc sw v := by
  cases sw <;> exact Nat.mod_mod _ _

/-- The entries that fit an accumulator are those that its wrap leaves. -/
theorem accOk_iff (sw : SampleWidth) (acc : Row) : accOk sw acc = true ↔ ∀ v ∈ acc, wrapAcc sw v = v := by
  cases sw <;> simp [accOk, wrapAcc]

theorem addRow_answers (sw : SampleWidth) (s acc : Row) (w : Nat) :
    Answers (fun d => (accOk sw acc = true → accOk sw d = true) ∧ w ≤ s.length ∧ w ≤ acc.length)
      (addRow sw (listRow s) acc w) := by
  have head : Answers (fun d => (∀ v ∈ d, wrapAcc sw v = v) ∧ ∀ i < w, i < s.length ∧ i < acc.length)
      (rowOf w fun i => do
        let a ← listRow acc i
        let v ← listRow s i
        .ok (wrapAcc sw (a + v))) :=
    rowOf_answers fun i => (listRow_answers (atMost_sum acc) _).bind fun _ ⟨_, _⟩ =>
      (listRow_answers (atMost_sum s) _).bind fun _ ⟨_, _⟩ => .ok ⟨wrapAcc_wrapAcc sw _, by omega⟩
  refine head.bind fun d ⟨hd, hb⟩ => .ok ⟨?_, ?_⟩
  · simp only [accOk_iff, List.mem_append]
    rintro hacc v (hv | hv)
    · exact hd v hv
    · exact hacc v (List.mem_of_mem_drop hv)
  · have := last_of_forall hb
    omega

theorem boxSample_le_maxSample (br : BoxRound) (sw : SampleWidth) (sum : Nat) (sc : Option Nat) (bh : Nat) (dx : Int)
    (j : Nat) : boxSample br sw sum sc bh dx j ≤ maxSample sw := by
  have := boxSample_le br sw sum sc bh dx j
  cases sw <;> exact Nat.le_of_lt_succ this

theorem boxDiv_le_maxSample (br : BoxRound) (sw : SampleWidth) (sum sc : Nat) : boxDiv br sw sum sc ≤ maxSample sw :=
  boxSample_le_maxSample br sw sum (some sc) 0 0 0

theorem narrow_le_maxSample (v scale : Nat) : narrow v scale ≤ maxSample .w8 := Nat.min_le_left _ _

theorem min1_eq (v : Int) : (min1 v : Int) = max 1 v := by
  unfold min1
  omega

/-- A box sum that answers lies in the accumulator row. -/
theorem sumRun_min1_answers (acc : Row) (c v : Int) :
    Answers (fun _ => 0 ≤ c ∧ c + max 1 v ≤ acc.length) (sumRun (listRow acc) c (min1 v)) := by
  have := min1_eq v
  exact (sumRun_answers (atMost_sum acc) c (min1 v)).mono fun _ ⟨_, h⟩ => by omega

/-- The fractional step of R186: each box reaches from its own column to the next box's. -/
theorem addCols_frac_answers (br : BoxRound) (sw : SampleWidth) (acc : Row) (bh n : Nat) (x : Int) {dx : Int}
    (hdx : dx % 65536 ≠ 0) :
    Answers (fun d => AtMost (maxSample sw) d ∧ ∀ j < n, 0 ≤ (x + j * dx) / 65536 ∧
        (x + j * dx) / 65536 + max 1 ((x + (j + 1 : Nat) * dx) / 65536 - (x + j * dx) / 65536) ≤ acc.length)
      (addCols br sw acc bh n x dx) := by
  rw [addCols, if_pos (show fracPart dx ≠ 0 from hdx)]
  refine rowOf_atMost (fun j => (sumRun_min1_answers acc _ _).bind fun _ h => .ok ⟨?_, ?_⟩) id
  · exact boxSample_le_maxSample ..
  · simpa only [wholePart_eq, Nat.cast_add, Nat.cast_one] using h

/-- The integer step of R186: boxes of one width, side by side. -/
theorem addCols_whole_answers (br : BoxRound) (sw : SampleWidth) (acc : Row) (bh n : Nat) (x : Int) {dx : Int}
    (hdx : dx % 65536 = 0) :
    Answers (fun d => AtMost (maxSample sw) d ∧ ∀ j < n, 0 ≤ x / 65536 + j * max 1 (dx / 65536) ∧
        x / 65536 + j * max 1 (dx / 65536) + max 1 (dx / 65536) ≤ acc.length)
      (addCols br sw acc bh n x dx) := by
  rw [addCols, if_neg (show ¬ fracPart dx ≠ 0 from not_not_intro hdx)]
  refine rowOf_atMost (fun j => (sumRun_min1_answers acc _ _).bind fun _ h => .ok ⟨?_, ?_⟩) id
  · exact boxSample_le_maxSample ..
  · simpa only [wholePart_eq, min1_eq] using h

/-! ### The kernels as internal operations -/

section
variable {sw : SampleWidth} {B : Prop}

/-- A row kernel whose samples keep the width's bound answers in range, or raises. -/
theorem Answers.rowInRange {r : Res Row} (hr : Answers (fun d => AtMost (maxSample sw) d ∧ B) r) (s : State) :
    (∃ res, answerRow r s = .next { s with result := res } ∧ resultInRange sw res = true) ∨
    answerRow r s = .next (raiseWhileRunning .oob s) :=
  (hr.answer .row s).imp_left fun ⟨d, hd, hM, _⟩ => ⟨.row d, hd, (rowOk_iff_atMost sw d).2 hM⟩

/-- The same for a kernel that answers a pair of rows. -/
theorem Answers.rowPairInRange {r : Res (Row × Row)}
    (hr : Answers (fun de => (AtMost (maxSample sw) de.1 ∧ AtMost (maxSample sw) de.2) ∧ B) r) (s : State) :
    (∃ res, Machine.answer (r.map fun de => .rowPair de.1 de.2) s = .next { s with result := res } ∧
      resultInRange sw res = true) ∨
    Machine.answer (r.map fun de => .rowPair de.1 de.2) s = .next (raiseWhileRunning .oob s) :=
  (hr.answer (fun de => .rowPair de.1 de.2) s).imp_left fun ⟨de, hde, ⟨hd, he⟩, _⟩ =>
    ⟨.rowPair de.1 de.2, hde, Bool.and_eq_true_iff.2 ⟨(rowOk_iff_atMost sw _).2 hd, (rowOk_iff_atMost sw _).2 he⟩⟩

theorem resultInRange_number {v : Nat} (h : v ≤ maxSample sw) : resultInRange sw (.number v) = true := by
  simpa [resultInRange] using h

end

/-- A kernel on legal samples answers samples of its width, or raises ERR_OOB (R16, R67). -/
theorem kernel_inRange_or_raises (i : Instr) (sw : SampleWidth) (s : State) (hk : kernelWidth i = some sw)
    (hwf : i.wf = true) :
    (∃ r, exec i s = .next { s with result := r } ∧ resultInRange sw r = true) ∨
    exec i s = .next (raiseWhileRunning .oob s) := by
  cases i <;> simp only [kernelWidth, reduceCtorEq, Option.some.injEq] at hk <;> subst hk <;>
    simp only [Instr.wf, Bool.and_eq_true, rowOk_iff_atMost, and_assoc] at hwf
  case kNarrow v scale => exact .inl ⟨_, rfl, resultInRange_number (narrow_le_maxSample v scale)⟩
  case kDown2Point r n => exact (down2Point_answers hwf n).rowInRange s
  case kDown2Linear r n => exact (down2Linear_answers hwf n).rowInRange s
  case kDown2Box r t n =>
    obtain ⟨hr, ht⟩ := hwf
    exact (down2Box_answers hr ht n).rowInRange s
  case kDown4Point r n => exact (down4Point_answers hwf n).rowInRange s
  case kDown4Box r t u v n =>
    obtain ⟨hr, ht, hu, hv⟩ := hwf
    exact (down4Box_answers hr ht hu hv n).rowInRange s
  case kDown34Point r n => exact (down34Point_answers hwf.1 n).rowInRange s
  case kDown34H r g => exact (rowOf_down34H_answers hwf g).rowInRange s
  case kDown34Box0 r t n =>
    obtain ⟨hr, ht, _⟩ := hwf
    exact (down34Box0_answers hr ht n).rowInRange s
  case kDown34Box1 r t n =>
    obtain ⟨hr, ht, _⟩ := hwf
    exact (down34Box1_answers hr ht n).rowInRange s
  case kDown38Point r n => exact (down38Point_answers hwf.1 n).rowInRange s
  case kDown38Box3 r t u n =>
    obtain ⟨hr, ht, hu, _⟩ := hwf
    exact (down38Box3_answers hr ht hu n).rowInRange s
  case kDown38Box2 r t n =>
    obtain ⟨hr, ht, _⟩ := hwf
    exact (down38Box2_answers hr ht n).rowInRange s
  case kUp2LinearCore r p d o =>
    obtain ⟨hr, hd⟩ := hwf
    exact ((up2LinearCore_answers hr hd o p).mono fun _ ⟨⟨h, _⟩, hb⟩ => ⟨h, hb⟩).rowInRange s
  case kUp2Linear r n => exact (up2Linear_answers hwf.1 n).rowInRange s
  case kUp2BilinearCore r t p d e o =>
    obtain ⟨hr, ht, hd, he⟩ := hwf
    exact ((up2BilinearCore_answers hr ht hd he o p).mono fun _ ⟨⟨h, _⟩, hb⟩ => ⟨h, hb⟩).rowPairInRange s
  case kUp2Bilinear r t n =>
    obtain ⟨hr, ht, _⟩ := hwf
    exact (up2Bilinear_answers hr ht n).rowPairInRange s
  case kColsPoint r n x dx => exact (colsPoint_answers hwf n x dx).rowInRange s
  case kColsBlend8 r n x dx => exact (colsBlend8_answers hwf s.cfg.blend8 n x dx).rowInRange s
  case kColsBlend16 r n x dx => exact (colsBlend16_answers hwf n x dx).rowInRange s
  case kInterp r t n f8 =>
    obtain ⟨hr, ht⟩ := hwf
    exact (interp_answers hr ht n f8.isLt.le).rowInRange s
  case kAddcols acc bh n x dx =>
    by_cases hdx : dx % 65536 = 0
    · exact (addCols_whole_answers s.cfg.boxRound _ acc bh n x hdx).rowInRange s
    · exact (addCols_frac_answers s.cfg.boxRound _ acc bh n x hdx).rowInRange s
  case kBoxdiv sum sc => exact .inl ⟨_, rfl, resultInRange_number (boxDiv_le_maxSample s.cfg.boxRound _ sum sc)⟩

/-- K.ADDROW on a legal accumulator answers a legal accumulator, or raises ERR_OOB (R185). -/
theorem kAddrow_accOk_or_raises (sw : SampleWidth) (r acc : Row) (w : Nat) (s : State)
    (hwf : (Instr.kAddrow sw r acc w).wf = true) :
    (∃ d, exec (.kAddrow sw r acc w) s = .next { s with result := .row d } ∧ accOk sw d = true) ∨
    exec (.kAddrow sw r acc w) s = .next (raiseWhileRunning .oob s) := by
  simp only [Instr.wf, Bool.and_eq_true] at hwf
  exact ((addRow_answers sw r acc w).answer .row s).imp_left fun ⟨d, hd, hacc, _⟩ => ⟨d, hd, hacc hwf.2⟩

/-! ### The raise -/

theorem raiseWhileRunning_idle (e : Err) {s : State} (h : s.phase = .idle) :
    raiseWhileRunning e s = endCommand (some e) s := by simp [raiseWhileRunning, h]

theorem raiseWhileRunning_busy (e : Err) {s : State} {c : Latched} {d : Bool} (h : s.phase = .busy c d) :
    raiseWhileRunning e s = endCommand (some e) (scrambleLatched c s) := by simp [raiseWhileRunning, h]

@[simp] theorem scrambleLatched_none {c : Latched} (h : latchedScaleOp c = none) (s : State) :
    scrambleLatched c s = s := by simp [scrambleLatched, h]

@[simp] theorem scrambleLatched_some {c : Latched} {op : ScaleOp} (h : latchedScaleOp c = some op) (s : State) :
    scrambleLatched c s = scrambleDst op c.planes s := by simp [scrambleLatched, h]

/-- Ending a command reports its error and leaves the rest of STATUS and the host's side alone (R34, R300). -/
theorem endCommand_report (e : Option Err) (s : State) :
    let t := endCommand e s
    t.err = e ∧ t.done = true ∧ t.phase = .idle ∧ t.path = s.path ∧ t.effFilter = s.effFilter ∧
    t.stepX = s.stepX ∧ t.stepY = s.stepY ∧ t.stepDX = s.stepDX ∧ t.stepDY = s.stepDY ∧ SameHostSide s t := by
  simp only [endCommand_err, endCommand_done, endCommand_phase, endCommand_path, endCommand_effFilter, endCommand_stepX,
    endCommand_stepY, endCommand_stepDX, endCommand_stepDY, true_and]
  exact ⟨by simp, by simp [registerPlanes], by simp, by simp, by simp, by simp⟩

theorem sameHostSide_scrambleLatched (c : Latched) (s : State) : SameHostSide s (scrambleLatched c s) :=
  ⟨by simp, by simp [registerPlanes], by simp, by simp, by simp, by simp⟩

theorem sameHostSide_trans {s t u : State} (hst : SameHostSide s t) (htu : SameHostSide t u) : SameHostSide s u :=
  ⟨htu.cfg.trans hst.cfg, htu.planes.trans hst.planes, htu.readData.trans hst.readData,
    htu.memData.trans hst.memData, htu.result.trans hst.result, htu.pending.trans hst.pending⟩

/-- A raise reports its error and leaves PATH, EFF_FILTER, STEP_* and the host's side alone (R300). -/
theorem raiseWhileRunning_report (e : Err) (s : State) :
    let t := raiseWhileRunning e s
    t.err = some e ∧ t.done = true ∧ t.phase = .idle ∧ t.path = s.path ∧ t.effFilter = s.effFilter ∧
    t.stepX = s.stepX ∧ t.stepY = s.stepY ∧ t.stepDX = s.stepDX ∧ t.stepDY = s.stepDY ∧ SameHostSide s t := by
  rcases hp : s.phase with _ | ⟨c, d⟩
  · rw [raiseWhileRunning_idle e hp]
    exact endCommand_report (some e) s
  · rw [raiseWhileRunning_busy e hp]
    have h := endCommand_report (some e) (scrambleLatched c s)
    simp only [scrambleLatched_path, scrambleLatched_effFilter, scrambleLatched_stepX, scrambleLatched_stepY,
      scrambleLatched_stepDX, scrambleLatched_stepDY] at h
    obtain ⟨herr, hdone, hphase, hpath, hfilter, hX, hY, hDX, hDY, hhost⟩ := h
    exact ⟨herr, hdone, hphase, hpath, hfilter, hX, hY, hDX, hDY,
      sameHostSide_trans (sameHostSide_scrambleLatched c s) hhost⟩

/-! ### The destination footprint after a raise -/

/-- Of values written at a list of addresses, each listed byte reads its own. -/
theorem read_foldl_write_mem {l : List Nat} (g : Nat → Byte) {m : Memory} (h : Memory.wf m = true) {a : Nat}
    (ha : a < 2 ^ 64) (hal : a ∈ l) :
    Memory.read (l.foldl (fun m a => Memory.write m a (g a)) m) a = g a := by
  induction l generalizing m with
  | nil => simp at hal
  | cons b rest ih =>
    by_cases hr : a ∈ rest
    · exact ih (wf_write m b (g b) h) hr
    · obtain rfl : a = b := (List.mem_cons.1 hal).resolve_right hr
      rw [List.foldl_cons, read_foldl_write_other rest g _ hr, read_write_same h ha]

/-- The bytes of a footprint that exist are among its listed addresses (R68). -/
theorem mem_spanBytes {cfg : Config} {spans : List (Int × Int)} {a : Nat} (hv : memValid cfg a = true)
    (hin : inSpans spans a = true) : a ∈ spanBytes cfg spans := by
  simp only [inSpans, List.any_eq_true, Bool.and_eq_true, decide_eq_true_eq] at hin
  obtain ⟨sp, hsp, hlo, hhi⟩ := hin
  have haddr : sp.1 + (((a : Int) - sp.1).toNat : Int) = a := by omega
  refine List.mem_flatMap.2 ⟨sp, hsp, List.mem_filterMap.2 ⟨((a : Int) - sp.1).toNat, ?_, ?_⟩⟩
  · rw [List.mem_range]
    omega
  · simp only [haddr]
    simp [hv]

theorem lt_of_memValid {cfg : Config} {a : Nat} (hv : memValid cfg a = true) : a < 2 ^ 64 := by
  simp only [memValid, Bool.and_eq_true, decide_eq_true_eq] at hv
  exact hv.1

/-- Scrambling a destination footprint makes each of its bytes a free value (R267, log 4). -/
theorem read_scrambleDst_mem (op : ScaleOp) (pl : Planes) {s : State} (h : Memory.wf s.mem = true) {a : Nat}
    (hin : inSpans (dstSpans op pl) a = true) (hv : memValid s.cfg a = true) :
    Memory.read (scrambleDst op pl s).mem a = Config.freeByte s.free a :=
  read_foldl_write_mem _ h (lt_of_memValid hv) (mem_spanBytes hv hin)

/-- A raise leaves the running command's destination as one or, for a disturbed command, two scramblings of it. -/
theorem raiseWhileRunning_mem (e : Err) {s : State} {c : Latched} {d : Bool} (h : s.phase = .busy c d) :
    (raiseWhileRunning e s).mem =
      if d then (scrambleLatched c (scrambleLatched c s)).mem else (scrambleLatched c s).mem := by
  rw [raiseWhileRunning_busy e h]
  cases d
  · exact endCommand_mem_undisturbed _ _ c (by simpa using h)
  · exact endCommand_mem_disturbed _ _ c (by simpa using h)

/-- A raise makes the destination of the running scaling command unspecified and changes no other byte (R267). -/
theorem raiseWhileRunning_dst (e : Err) {s : State} {c : Latched} {d : Bool} {op : ScaleOp}
    (h : s.phase = .busy c d) (hop : latchedScaleOp c = some op) (hwf : Memory.wf s.mem = true) :
    ∃ k, ∀ a : Nat,
      (inSpans (dstSpans op c.planes) a = false → Memory.read (raiseWhileRunning e s).mem a = Memory.read s.mem a) ∧
      (inSpans (dstSpans op c.planes) a = true → memValid s.cfg a = true →
        Memory.read (raiseWhileRunning e s).mem a = Config.freeByte k a) := by
  simp only [raiseWhileRunning_mem e h, scrambleLatched_some hop]
  cases d with
  | false => exact ⟨s.free, fun a => ⟨read_scrambleDst_other op c.planes s, read_scrambleDst_mem op c.planes hwf⟩⟩
  | true =>
    refine ⟨(scrambleDst op c.planes s).free, fun a => ⟨fun hout => ?_, fun hin hv => ?_⟩⟩
    · exact (read_scrambleDst_other op c.planes _ hout).trans (read_scrambleDst_other op c.planes s hout)
    · exact read_scrambleDst_mem op c.planes (wf_scrambleDst op c.planes s hwf) hin hv

/-- A raise while a command without a destination runs touches no memory. -/
theorem raiseWhileRunning_mem_none (e : Err) {s : State} {c : Latched} {d : Bool} (h : s.phase = .busy c d)
    (hop : latchedScaleOp c = none) : (raiseWhileRunning e s).mem = s.mem := by
  rw [raiseWhileRunning_mem e h]
  cases d <;> simp [hop]

/-! ### The obligation -/

/-- K.ADDCOLS raises when the box of an output is not inside the accumulator row (R186, log 12, log 22). -/
theorem kAddcols_raises (sw : SampleWidth) (acc : Row) (bh n : Nat) (x dx : Int) (st : State) {j : Nat} (hj : j < n)
    {width first : Int}
    (hwidth : width = if dx % 65536 = 0 then max 1 (dx / 65536)
      else max 1 ((x + (j + 1 : Nat) * dx) / 65536 - (x + j * dx) / 65536))
    (hfirst : first = if dx % 65536 = 0 then x / 65536 + j * width else (x + j * dx) / 65536)
    (h : first < 0 ∨ acc.length < first + width) :
    exec (.kAddcols sw acc bh n x dx) st = .next (raiseWhileRunning .oob st) := by
  by_cases hdx : dx % 65536 = 0
  · rw [if_pos hdx] at hwidth hfirst
    subst hwidth hfirst
    refine (addCols_whole_answers st.cfg.boxRound sw acc bh n x hdx).raises (fun hB => ?_) .row st
    have := hB j hj
    omega
  · rw [if_neg hdx] at hwidth hfirst
    subst hwidth hfirst
    refine (addCols_frac_answers st.cfg.boxRound sw acc bh n x hdx).raises (fun hB => ?_) .row st
    have := hB j hj
    omega

/-- Settles O57: each kernel's own lemma says what it reads, so that a kernel with a read outside a row raises. -/
theorem kernelsAnswerInRangeOrRaise : Obligations.KernelsAnswerInRangeOrRaise := by
  unfold Obligations.KernelsAnswerInRangeOrRaise
  refine ⟨kernel_inRange_or_raises, kAddrow_accOk_or_raises, ?_, ?_, ?_⟩
  · intro sw s t u v n st raises
    obtain ⟨M, hs, ht, hu, hv⟩ := exists_atMost s t u v
    refine ⟨fun h => ⟨?_, ?_⟩, fun h => ?_, fun h => ?_, fun h => ?_, fun h => ?_, fun h => ?_, fun h => ⟨?_, ?_⟩,
      fun h => ?_, fun h => ?_, fun h => ?_, fun h => ?_, fun h => ?_, fun o hn => ⟨fun h => ?_, fun h => ?_⟩,
      fun f8 h => ?_, fun h => ?_⟩
    · exact (down2Point_answers hs n).raises (by omega) .row st
    · exact (down2Linear_answers hs n).raises (by omega) .row st
    · exact (down2Box_answers hs ht n).raises (by omega) .row st
    · exact (down4Point_answers hs n).raises (by omega) .row st
    · exact (down4Box_answers hs ht hu hv n).raises (by omega) .row st
    · exact (down34Point_answers hs (3 * n)).raises (by omega) .row st
    · exact (rowOf_down34H_answers hs n).raises (by omega) .row st
    · exact (down34Box0_answers hs ht (3 * n)).raises (by omega) .row st
    · exact (down34Box1_answers hs ht (3 * n)).raises (by omega) .row st
    · exact (down38Point_answers hs (3 * n)).raises (by omega) .row st
    · exact (down38Box2_answers hs ht (3 * n)).raises (by omega) .row st
    · exact (down38Box3_answers hs ht hu (3 * n)).raises (by omega) .row st
    · exact (up2Linear_answers hs n).raises (by omega) .row st
    · exact (up2Bilinear_answers hs ht n).raises (by omega) _ st
    · exact (up2LinearCore_answers hs hu o n).raises (by omega) .row st
    · exact (up2BilinearCore_answers hs ht hu hv o n).raises (by omega) _ st
    · refine (interp_answers hs ht n f8.isLt.le).raises (fun ⟨hns, hnt⟩ => ?_) .row st
      rcases h with h | ⟨hf, h⟩
      · omega
      · have := hnt fun h0 => hf (BitVec.eq_of_toNat_eq h0)
        omega
    · exact (addRow_answers sw s t n).raises (by omega) .row st
  · intro sw s n j bh x dx st hj raises col frac weight8 width first
    have hs := atMost_sum s
    refine ⟨fun h => ?_, fun h => ?_, fun h => ?_, fun h => kAddcols_raises sw s bh n x dx st hj rfl rfl h⟩
    · refine (colsPoint_answers hs n x dx).raises (fun hB => ?_) .row st
      have := hB j hj
      omega
    · refine (colsBlend8_answers hs st.cfg.blend8 n x dx).raises (fun hB => ?_) .row st
      obtain ⟨hcol0, hcol, hright⟩ := hB j hj
      rcases h with h | h | ⟨hw, h⟩
      · omega
      · omega
      · have := hright hw
        omega
    · refine (colsBlend16_answers hs n x dx).raises (fun hB => ?_) .row st
      have := hB j hj
      omega
  · intro s
    obtain ⟨herr, hdone, hphase, hpath, hfilter, hX, hY, hDX, hDY, hhost⟩ := raiseWhileRunning_report .oob s
    exact ⟨herr, hdone, hphase, hpath, hfilter, hX, hY, hDX, hDY, hhost, raiseWhileRunning_mem_idle .oob,
      fun c d h => ⟨raiseWhileRunning_mem_none .oob h, fun op hop hwf => raiseWhileRunning_dst .oob h hop hwf⟩⟩

end Sys2Proof.Proofs.KernelAnswers

/-! PROOFS. The register block as the host sees it (R31 to R34, R43, R344): where an aligned access at an offset lands, what
a write of each register does, and the fields of the two register words, CMD and STATUS. -/

namespace Sys2Proof.Proofs.RegisterBlock

open Sys2Proof Sys2Proof.Machine

/-! ### Offsets and registers -/

theorem blockOffset_regBase_add (cfg : Config) {off : Nat} (h : off < 0x100) :
    blockOffset cfg (cfg.regBase + BitVec.ofNat 64 off) = some off := by
  have hoff : (cfg.regBase + BitVec.ofNat 64 off - cfg.regBase).toNat = off := by
    rw [BitVec.add_comm, BitVec.add_sub_cancel, BitVec.toNat_ofNat]
    omega
  rw [blockOffset, hoff, if_pos h]

@[simp] theorem regAt_regOffset (r : Reg) : regAt (regOffset r) = some r := by cases r <;> rfl

theorem regOffset_of_regAt {off : Nat} {r : Reg} (h : regAt off = some r) : regOffset r = off := by
  unfold regAt at h
  split at h <;> cases h <;> rfl

theorem regOffset_aligned (r : Reg) : regOffset r % 4 = 0 := by cases r <;> rfl

theorem regOffset_le (r : Reg) : regOffset r ≤ 0x44 := by cases r <;> decide

/-- No register stands at 0x1C or above 0x44 (R31, R87). -/
theorem regAt_reserved {off : Nat} (h : off = 0x1C ∨ 0x48 ≤ off) : regAt off = none := by
  rw [Option.eq_none_iff_forall_ne_some]
  intro r hr
  have hle := regOffset_le r
  have hne : regOffset r ≠ 0x1C := by cases r <;> decide
  rw [regOffset_of_regAt hr] at hle hne
  omega

/-- The register map (10_state.md section 2). -/
def registers : List Reg :=
  [.cmd, .status, .srcBaseLo, .srcBaseHi, .srcStride, .srcW, .srcH, .dstBaseLo, .dstBaseHi, .dstStride, .dstW, .dstH,
    .scale, .stepX, .stepY, .stepDX, .stepDY]

/-! ### Accesses at an offset -/

theorem hostStep_regRead_at (s : State) {off : Nat} (h : off < 0x100) (hal : off % 4 = 0) :
    hostStep (.regRead (s.cfg.regBase + BitVec.ofNat 64 off)) s = .next { s with readData := readOffset off s } := by
  simp [hostStep, hostRegRead, blockOffset_regBase_add _ h, hal]

theorem hostStep_regWrite_at (s : State) {off : Nat} (v : Word) (h : off < 0x100) (hal : off % 4 = 0) :
    hostStep (.regWrite (s.cfg.regBase + BitVec.ofNat 64 off) v) s = .next (writeOffset off v s) := by
  simp [hostStep, hostRegWrite, blockOffset_regBase_add _ h, hal]

theorem readOffset_reserved {off : Nat} (h : off = 0x1C ∨ 0x48 ≤ off) (s : State) : readOffset off s = 0#32 := by
  simp [readOffset, regAt_reserved h]

theorem hostStep_read_reg (r : Reg) (s : State) :
    hostStep (.regRead (s.cfg.regBase + BitVec.ofNat 64 (regOffset r))) s = .next { s with readData := readReg r s } := by
  have hle := regOffset_le r
  rw [hostStep_regRead_at s (by omega) (regOffset_aligned r)]
  simp [readOffset]

theorem hostStep_write_reg_idle {s : State} (h : s.phase = .idle) (r : Reg) (v : Word) :
    hostStep (.regWrite (s.cfg.regBase + BitVec.ofNat 64 (regOffset r)) v) s = .next (writeRegIdle r v s) := by
  have hle := regOffset_le r
  rw [hostStep_regWrite_at s v (by omega) (regOffset_aligned r)]
  simp [writeOffset, isBusy_idle h]

/-- Writes are ignored while BUSY = 1 (R31, R344). -/
theorem writeOffset_busy {s : State} (h : isBusy s = true) (off : Nat) (v : Word) : writeOffset off v s = s := by
  simp [writeOffset, h]

theorem hostStep_write_busy {s : State} (h : isBusy s = true) {off : Nat} (hoff : off < 0x100) (hal : off % 4 = 0)
    (v : Word) : hostStep (.regWrite (s.cfg.regBase + BitVec.ofNat 64 off) v) s = .next s := by
  rw [hostStep_regWrite_at s v hoff hal, writeOffset_busy h]

/-- A write of a reserved offset or a read-only register has no effect, Busy or Idle (R31). -/
theorem writeOffset_readOnly {off : Nat} (h : off = 0x04 ∨ off = 0x1C ∨ 0x38 ≤ off) (v : Word) (s : State) :
    writeOffset off v s = s := by
  unfold writeOffset
  split
  · rfl
  · rcases hr : regAt off with _ | r
    · rfl
    · rw [← regOffset_of_regAt hr] at h
      cases r
      case status | stepX | stepY | stepDX | stepDY => rfl
      all_goals exact absurd h (by decide)

/-! ### CMD (R32, R80) -/

/-- The four fields of a command word, put together again (R80). -/
theorem fields_append (w : Word) :
    w.extractLsb' 31 1 ++ w.extractLsb' 6 25 ++ w.extractLsb' 4 2 ++ w.extractLsb' 0 4 = w := by
  have hrsv : w.extractLsb' 31 1 ++ w.extractLsb' 6 25 = w.extractLsb' 6 26 :=
    BitVec.extractLsb'_append_extractLsb'_eq_extractLsb' rfl
  have hfilter : w.extractLsb' 6 26 ++ w.extractLsb' 4 2 = w.extractLsb' 4 28 :=
    BitVec.extractLsb'_append_extractLsb'_eq_extractLsb' rfl
  have hop : w.extractLsb' 4 28 ++ w.extractLsb' 0 4 = w.extractLsb' 0 32 :=
    BitVec.extractLsb'_append_extractLsb'_eq_extractLsb' rfl
  rw [hrsv, hfilter, hop, BitVec.extractLsb'_eq_self]

/-- START latches the whole written word (R42). -/
theorem latchedWord_latch {w : Word} (hstart : w.getLsbD 31 = true) (s : State) : latchedWord (latch w s) = w := by
  have htop : 1#1 = w.extractLsb' 31 1 := by
    apply BitVec.eq_of_getLsbD_eq
    intro i hi
    obtain rfl : i = 0 := by omega
    simpa using hstart.symm
  rw [latchedWord, htop]
  exact fields_append w

theorem hostStep_write_cmd_idle {s : State} (h : s.phase = .idle) (w : Word) :
    hostStep (.regWrite s.cfg.regBase w) s = .next (if w.getLsbD 31 then startCommand w s else s) := by
  have hw := hostStep_write_reg_idle h .cmd w
  rwa [regOffset, BitVec.add_zero] at hw

/-- Settles O5: CMD stands at RB itself, and the word that START latches is the written one. -/
theorem cmdWriteStartsACommand : Obligations.CmdWriteStartsACommand := by
  unfold Obligations.CmdWriteStartsACommand
  intro s w
  refine ⟨fun hidle hstart => ?_, fun hstart => ?_, ?_⟩
  · exact ⟨latch w s, latchedWord_latch hstart s, rfl, by rw [hostStep_write_cmd_idle hidle, if_pos hstart]; rfl⟩
  · rcases hp : s.phase with _ | ⟨c, d⟩
    · rw [hostStep_write_cmd_idle hp, if_neg (Bool.eq_false_iff.1 hstart)]
    · have hw := hostStep_write_busy (isBusy_busy hp) (off := 0) (by decide) rfl w
      rwa [BitVec.add_zero] at hw
  · have hr := hostStep_read_reg .cmd s
    rwa [regOffset, BitVec.add_zero] at hr

/-! ### The access rules -/

/-- Settles O6, by what an aligned access inside the block does at its offset. -/
theorem registerAccessRules : Obligations.RegisterAccessRules := by
  unfold Obligations.RegisterAccessRules
  intro s off v hoff hal
  have read_at : ∀ r, regOffset r = off →
      hostStep (.regRead (s.cfg.regBase + BitVec.ofNat 64 off)) s = .next { s with readData := readReg r s } := by
    rintro r rfl
    exact hostStep_read_reg r s
  refine ⟨fun hbusy => hostStep_write_busy hbusy hoff hal v, fun hro => ?_, fun hres => ?_, read_at, fun w hmap => ?_⟩
  · rw [hostStep_regWrite_at s v hoff hal, writeOffset_readOnly hro]
  · rw [hostStep_regRead_at s hoff hal, readOffset_reserved hres]
  · obtain ⟨r, -, hr⟩ : ∃ r ∈ registers, (regOffset r, readReg r s) = (off, w) := List.mem_map.1 hmap
    obtain ⟨hro, rfl⟩ := Prod.mk.inj hr
    exact read_at r hro

/-! ### The parameter registers (R22 to R30) -/

theorem setWidth_setWidth_low (v : Word) : (v.setWidth 16).setWidth 32 = v &&& 0xFFFF#32 := by
  apply BitVec.eq_of_toNat_eq
  rw [BitVec.toNat_setWidth, BitVec.toNat_setWidth, BitVec.toNat_and, Nat.mod_eq_of_lt (by omega)]
  exact (Nat.and_two_pow_sub_one_eq_mod v.toNat 16).symm

theorem append_eq_shift_or (hi lo : Word) : hi ++ lo = hi.setWidth 64 <<< 32 ||| lo.setWidth 64 := by
  have h := BitVec.append_def hi lo
  rwa [BitVec.shiftLeftZeroExtend_eq] at h

/-- What START would latch, in the words a host reads (R43, R83). -/
theorem registerPlanes_eq_reads (t : State) :
    registerPlanes t = {
      srcBase := (readReg .srcBaseHi t).setWidth 64 <<< 32 ||| (readReg .srcBaseLo t).setWidth 64
      srcStride := readReg .srcStride t
      srcW := readReg .srcW t
      srcH := readReg .srcH t
      dstBase := (readReg .dstBaseHi t).setWidth 64 <<< 32 ||| (readReg .dstBaseLo t).setWidth 64
      dstStride := readReg .dstStride t
      dstW := readReg .dstW t
      dstH := readReg .dstH t
      scale := (readReg .scale t).setWidth 16 } := by
  have hscale : (readReg .scale t).setWidth 16 = t.scale := by simp [readReg]
  rw [registerPlanes, append_eq_shift_or, append_eq_shift_or, hscale]
  rfl

/-- The registers a host writes as operands (R22 to R30). -/
def isParameter (r : Reg) : Prop := regOffset r ≠ 0x00 ∧ regOffset r ≠ 0x04 ∧ regOffset r < 0x38

theorem readReg_writeRegIdle_same {r : Reg} (hr : isParameter r) (v : Word) (s : State) :
    readReg r (writeRegIdle r v s) = if r = .scale then v &&& 0xFFFF#32 else v := by
  obtain ⟨hcmd, hstatus, hstep⟩ := hr
  cases r
  case cmd => exact absurd rfl hcmd
  case status => exact absurd rfl hstatus
  case stepX | stepY | stepDX | stepDY => exact absurd hstep (by decide)
  case scale => exact setWidth_setWidth_low v
  all_goals rfl

theorem readReg_writeRegIdle_other {r r' : Reg} (hr : isParameter r) (hne : r' ≠ r) (v : Word) (s : State) :
    readReg r' (writeRegIdle r v s) = readReg r' s := by
  obtain ⟨hcmd, -, -⟩ := hr
  cases r
  case cmd => exact absurd rfl hcmd
  all_goals cases r' <;> simp [readReg, writeRegIdle, statusWord, isBusy] at hne ⊢

/-- A parameter write changes no field but the parameter registers. -/
theorem writeRegIdle_frame {r : Reg} (hr : isParameter r) (v : Word) (s : State) :
    let t := writeRegIdle r v s
    t = { s with
      srcBaseLo := t.srcBaseLo, srcBaseHi := t.srcBaseHi, srcStride := t.srcStride, srcW := t.srcW, srcH := t.srcH,
      dstBaseLo := t.dstBaseLo, dstBaseHi := t.dstBaseHi, dstStride := t.dstStride, dstW := t.dstW, dstH := t.dstH,
      scale := t.scale } := by
  obtain ⟨hcmd, -, -⟩ := hr
  cases r
  case cmd => exact absurd rfl hcmd
  all_goals rfl

/-- Settles O7: the state reached is the written register's update, read back register by register. -/
theorem parameterWriteReadsBack : Obligations.ParameterWriteReadsBack := by
  unfold Obligations.ParameterWriteReadsBack
  intro s r v hidle hcmd hstatus hstep
  have hr : isParameter r := ⟨hcmd, hstatus, hstep⟩
  exact ⟨writeRegIdle r v s, hostStep_write_reg_idle hidle r v, readReg_writeRegIdle_same hr v s,
    fun r' hne => readReg_writeRegIdle_other hr hne v s, writeRegIdle_frame hr v s, registerPlanes_eq_reads _⟩

/-! ### STATUS (R33) -/

theorem toNat_append_eq {m n : Nat} (a : BitVec m) (b : BitVec n) : (a ++ b).toNat = a.toNat * 2 ^ n + b.toNat := by
  rw [BitVec.toNat_append, ← Nat.shiftLeft_add_eq_or_of_lt b.isLt, Nat.shiftLeft_eq]

/-- The STATUS word as the sum of its fields at their places (R33). -/
theorem statusWord_toNat (s : State) :
    (statusWord s).toNat =
      (filterBits s.effFilter).toNat * 2 ^ 13 + (pathCode s.path).toNat * 2 ^ 8 + (errCode s.err).toNat * 2 ^ 4 +
        (BitVec.ofBool s.done).toNat * 2 + (BitVec.ofBool (isBusy s)).toNat := by
  have packed : ∀ (f : BitVec 2) (p : BitVec 5) (e : BitVec 4) (d b : BitVec 1),
      (0#17 ++ f ++ p ++ e ++ 0#2 ++ d ++ b).toNat =
        f.toNat * 2 ^ 13 + p.toNat * 2 ^ 8 + e.toNat * 2 ^ 4 + d.toNat * 2 + b.toNat := by
    intro f p e d b
    simp only [toNat_append_eq, BitVec.toNat_ofNat]
    omega
  exact packed _ _ _ _ _

theorem statusWord_extractLsb' (s : State) (start len : Nat) (v : BitVec len)
    (h : (statusWord s).toNat / 2 ^ start % 2 ^ len = v.toNat) : (statusWord s).extractLsb' start len = v := by
  apply BitVec.eq_of_toNat_eq
  rw [BitVec.extractLsb'_toNat, Nat.shiftRight_eq_div_pow, h]

theorem getLsbD_eq_of_extractLsb' {n : Nat} {w : BitVec n} {i : Nat} {b : Bool}
    (h : w.extractLsb' i 1 = BitVec.ofBool b) : w.getLsbD i = b := by
  have hb := congrArg (·.getLsbD 0) h
  simpa using hb

/-- Settles O8, by the places of the fields in the STATUS word. -/
theorem statusWordFields : Obligations.StatusWordFields := by
  unfold Obligations.StatusWordFields
  refine ⟨fun s => ?_, by decide, by decide, by decide⟩
  have hw := statusWord_toNat s
  have hfilter := (filterBits s.effFilter).isLt
  have hpath := (pathCode s.path).isLt
  have herr := (errCode s.err).isLt
  have hdone := (BitVec.ofBool s.done).isLt
  have hbusy := (BitVec.ofBool (isBusy s)).isLt
  refine ⟨isBusy_idle, fun c d => isBusy_busy, getLsbD_eq_of_extractLsb' ?_, getLsbD_eq_of_extractLsb' ?_, ?_, ?_, ?_, ?_,
    ?_, hostStep_read_reg .status s⟩ <;> apply statusWord_extractLsb' <;> bv_omega

end Sys2Proof.Proofs.RegisterBlock

/-! PROOFS. What dispatch selects (R130 to R155): the effective mode fits the sizes, and so every path is selected with a
mode of its row in R151 only. -/

namespace Sys2Proof.Proofs.DispatchPairs

open Sys2Proof Sys2Proof.Machine

/-! ### The effective mode -/

/-- What a mode that the reduction leaves says of the sizes (R131 to R133). -/
structure ModeFits (w h dstW dstH : Int) (m : FilterMode) : Prop where
  box : m = .box → 2 * dstW < w ∧ 2 * dstH < h
  bilinear : m = .bilinear → dstH ≠ h
  linear : m = .linear → dstW ≠ w

theorem reduceBox_eq_box {w h dstW dstH : Int} {m : FilterMode} (hm : reduceBox w h dstW dstH m = .box) :
    2 * dstW < w ∧ 2 * dstH < h := by
  unfold reduceBox at hm
  split at hm
  · cases hm
  · rename_i hkeep
    simp only [hm, true_and, not_or, not_le] at hkeep
    exact hkeep

theorem reduceBilinear_eq_box {w h dstH : Int} {m : FilterMode} (hm : reduceBilinear w h dstH m = .box) : m = .box := by
  unfold reduceBilinear at hm
  dsimp only at hm
  split_ifs at hm
  exact hm

theorem reduceBilinear_eq_bilinear {w h dstH : Int} {m : FilterMode} (hm : reduceBilinear w h dstH m = .bilinear) :
    dstH ≠ h := by
  unfold reduceBilinear at hm
  dsimp only at hm
  split_ifs at hm with _ _ hkeep
  · exact fun heq => hkeep (.inr (.inl heq))
  · contradiction

theorem reduceLinear_eq {w dstW : Int} {m m' : FilterMode} (hm : reduceLinear w dstW m = m') (hne : m' ≠ .none) :
    m = m' ∧ (m' = .linear → dstW ≠ w) := by
  unfold reduceLinear at hm
  split at hm
  · exact absurd hm.symm hne
  · rename_i hkeep
    exact ⟨hm, fun hl heq => hkeep ⟨hm.trans hl, .inr (.inl heq)⟩⟩

theorem reduce_modeFits (srcW srcH dstW dstH : Int) (f : FilterMode) :
    ModeFits srcW.natAbs srcH.natAbs dstW dstH (reduce srcW srcH dstW dstH f) where
  box hm := reduceBox_eq_box (reduceBilinear_eq_box (reduceLinear_eq hm (by decide)).1)
  bilinear hm := reduceBilinear_eq_bilinear (reduceLinear_eq hm (by decide)).1
  linear hm := (reduceLinear_eq hm (by decide)).2 rfl

/-! ### The selected path -/

/-- The condition under which a step of the dispatch selects the path (R143 to R150); the two 12-bit paths are those of
R155. -/
def selectedWhen (srcW h dstW dstH : Int) (m : FilterMode) : PathCode → Prop
  | .copy => dstW = srcW ∧ dstH = h
  | .vertical => dstW = srcW ∧ m ≠ .box
  | .down34 => ratio34 srcW h dstW dstH = true
  | .down2 => ratio2 srcW h dstW dstH = true
  | .down38 => ratio38 srcW h dstW dstH = true
  | .down4 => m = .box ∨ m = .none
  | .box => m = .box
  | .up2Linear | .up2Linear12 => m = .linear
  | .up2Bilinear | .up2Bilinear12 => doubles srcW dstW = true ∧ (m = .bilinear ∨ m = .box)
  | .bilinearUp => m ≠ .none ∧ h < dstH
  | .bilinearDown => m ≠ .none ∧ ¬ (m = .box ∧ 2 * dstH < h)
  | .simple => m = .none

theorem selectPath_selectedWhen (srcW h dstW dstH : Int) (m : FilterMode) :
    selectedWhen srcW h dstW dstH m (selectPath srcW h dstW dstH m) := by
  unfold selectPath
  extract_lets down
  refine iteInduction (fun copy => copy) fun _ => ?_
  refine iteInduction (fun vertical => vertical) fun _ => ?_
  refine iteInduction (fun down34 => down34.2) fun _ => ?_
  refine iteInduction (fun down2 => down2.2) fun _ => ?_
  refine iteInduction (fun down38 => down38.2) fun _ => ?_
  refine iteInduction (fun down4 => down4.2.2) fun _ => ?_
  refine iteInduction (fun box => box.1) fun notBox => ?_
  refine iteInduction (fun up2Linear => up2Linear.2) fun _ => ?_
  refine iteInduction (fun up2Bilinear => up2Bilinear.2) fun _ => ?_
  refine iteInduction (fun bilinearUp => bilinearUp) fun _ => ?_
  exact iteInduction (fun filtered => ⟨filtered, notBox⟩) not_not.1

theorem select_selectedWhen (srcW srcH dstW dstH : Int) (f : FilterMode) :
    selectedWhen srcW srcH.natAbs dstW dstH (select srcW srcH dstW dstH f).mode (select srcW srcH dstW dstH f).path :=
  selectPath_selectedWhen _ _ _ _ _

theorem select12_selectedWhen (srcW srcH dstW dstH : Int) (f : FilterMode) :
    selectedWhen srcW srcH.natAbs dstW dstH (select12 srcW srcH dstW dstH f).mode
      (select12 srcW srcH dstW dstH f).path := by
  unfold select12
  dsimp only
  refine iteInduction (fun linear => linear.2) fun _ => ?_
  exact iteInduction (fun bilinear => bilinear.2) fun _ => selectPath_selectedWhen _ _ _ _ _

theorem natAbs_le_of_doubles {src dst : Int} (h : doubles src dst = true) (hd : 1 ≤ dst) : src.natAbs ≤ dst := by
  simp only [doubles, decide_eq_true_eq] at h
  rw [Int.tdiv_eq_ediv_of_nonneg (by omega)] at h
  omega

/-- A mode that fits the sizes is a mode of the path's row in R151. -/
theorem reachablePair_of_selectedWhen {srcW h dstW dstH : Int} {m : FilterMode} {p : PathCode} (hw : 1 ≤ dstW)
    (hh : 1 ≤ dstH) (hfits : ModeFits srcW.natAbs h dstW dstH m) (hsel : selectedWhen srcW h dstW dstH m p) :
    reachablePair p m = true := by
  obtain ⟨hbox, hbilinear, hlinear⟩ := hfits
  cases p
  case copy =>
    obtain ⟨hwidth, hheight⟩ : dstW = srcW ∧ dstH = h := hsel
    cases m
    case none => rfl
    case linear => exact absurd (by omega) (hlinear rfl)
    case bilinear => exact absurd hheight (hbilinear rfl)
    case box => have := hbox rfl; omega
  case vertical =>
    obtain ⟨hwidth, hnotBox⟩ : dstW = srcW ∧ m ≠ .box := hsel
    cases m
    case none | bilinear => rfl
    case linear => exact absurd (by omega) (hlinear rfl)
    case box => exact absurd rfl hnotBox
  case down34 =>
    simp only [selectedWhen, ratio34, decide_eq_true_eq] at hsel
    cases m
    case box => have := hbox rfl; omega
    all_goals rfl
  case down2 =>
    simp only [selectedWhen, ratio2, decide_eq_true_eq] at hsel
    cases m
    case box => have := hbox rfl; omega
    all_goals rfl
  case down38 => rfl
  case down4 => rcases hsel with rfl | rfl <;> rfl
  case up2Bilinear | up2Bilinear12 =>
    have hle := natAbs_le_of_doubles hsel.1 hw
    rcases hsel.2 with rfl | rfl
    · rfl
    · have := hbox rfl; omega
  case bilinearUp =>
    obtain ⟨hnotNone, hup⟩ : m ≠ .none ∧ h < dstH := hsel
    cases m
    case none => exact absurd rfl hnotNone
    case linear | bilinear => rfl
    case box => have := hbox rfl; omega
  case bilinearDown =>
    obtain ⟨hnotNone, hnotBox⟩ : m ≠ .none ∧ ¬ (m = .box ∧ 2 * dstH < h) := hsel
    cases m
    case none => exact absurd rfl hnotNone
    case linear | bilinear => rfl
    case box => exact absurd ⟨rfl, (hbox rfl).2⟩ hnotBox
  case box | up2Linear | up2Linear12 | simple =>
    cases hsel
    rfl

theorem dstDims_of_preCheck {cfg : Config} {op : ScaleOp} {pl : Planes} (hpre : preCheck cfg op pl = none) :
    1 ≤ pl.dstW.toInt ∧ 1 ≤ pl.dstH.toInt := by
  unfold preCheck at hpre
  split at hpre
  · cases hpre
  · rename_i hdims
    simp only [Bool.not_eq_false, dimsLegal, Bool.and_eq_true, decide_eq_true_eq] at hdims
    omega

/-- Dispatch after the dimension check selects a pair of R151 (R265, R302). -/
theorem dispatch_reachablePair {cfg : Config} {op : ScaleOp} {pl : Planes} (hpre : preCheck cfg op pl = none)
    (f : FilterMode) : reachablePair (dispatch op pl f).path (dispatch op pl f).mode = true := by
  obtain ⟨hw, hh⟩ := dstDims_of_preCheck hpre
  cases op
  case scale12 => exact reachablePair_of_selectedWhen hw hh (reduce_modeFits ..) (select12_selectedWhen ..)
  all_goals exact reachablePair_of_selectedWhen hw hh (reduce_modeFits ..) (select_selectedWhen ..)

end Sys2Proof.Proofs.DispatchPairs

/-! PROOFS. Which errors a path can report (R34, R67, R243, R311): a row kernel raises ERR_OOB and what its reads raise, and
nothing else, so that every error of a path fits the path. -/

namespace Sys2Proof.Proofs.PathErrors

open Sys2Proof Sys2Proof.Machine

/-! ### Computations that raise errors of a set only -/

/-- Every error of the computation is one of `E`. -/
def Raises {α : Type} (E : Err → Prop) (r : Res α) : Prop := ∀ e, r = .error e → E e

section
variable {α β : Type} {E : Err → Prop}

theorem Raises.ok (v : α) : Raises E (.ok v) := fun _ h => nomatch h

theorem Raises.error {e : Err} (h : E e) : Raises E (.error e : Res α) := fun _ he => Except.error.inj he ▸ h

theorem Raises.bind {r : Res α} {f : α → Res β} (hr : Raises E r) (hf : ∀ v, Raises E (f v)) : Raises E (r >>= f) := by
  rcases r with e | v
  · exact .error (hr e rfl)
  · exact hf v

theorem Raises.ite {c : Prop} [Decidable c] {r r' : Res α} (hr : Raises E r) (hr' : Raises E r') :
    Raises E (if c then r else r') := iteInduction (fun _ => hr) fun _ => hr'

theorem Raises.rowOf {n : Nat} {f : Nat → Res Nat} (hf : ∀ i, Raises E (f i)) : Raises E (rowOf n f) := by
  intro e he
  rcases rowOf_cases f n with ⟨d, hd, -⟩ | ⟨k, e', -, hk, hrow, -⟩
  · rw [he] at hd
    cases hd
  · rw [he] at hrow
    cases hrow
    exact hf k e hk

theorem Raises.planeFrom {f : Nat → Res Row} (hf : ∀ j, Raises E (f j)) (j n : Nat) : Raises E (planeFrom f j n) := by
  induction n generalizing j with
  | zero => exact .ok _
  | succ n ih => exact .bind (hf j) fun _ => .bind (ih _) fun _ => .ok _

theorem Raises.planeOf {jb : PathJob} {f : Nat → Res Row} (hf : ∀ j, Raises E (f j)) : Raises E (planeOf jb f) :=
  .planeFrom hf 0 _

end

/-! ### The row kernels -/

section
variable {E : Err → Prop} {s t u v : Reader}

/-- Every read of the row raises errors of `E` only. -/
def ReadsRaise (E : Err → Prop) (s : Reader) : Prop := ∀ i, Raises E (s i)

theorem listRow_readsRaise (oob : E .oob) (l : Row) : ReadsRaise E (listRow l) :=
  fun _ _ he => listRow_error he ▸ oob

theorem srcRow_readsRaise (oob : E .oob) (op : ScaleOp) (pl : Planes) (m : Memory) (r : Int) :
    ReadsRaise E (srcRow op pl m r) := fun _ => .ite (.ok _) (.error oob)

theorem setAt_raises (oob : E .oob) (d : Row) (i v : Nat) : Raises E (setAt d i v) := .ite (.ok _) (.error oob)

theorem sumRun_raises (hs : ReadsRaise E s) (c : Int) (k : Nat) : Raises E (sumRun s c k) := by
  induction k with
  | zero => exact .ok _
  | succ k ih => exact .bind ih fun _ => .bind (hs _) fun _ => .ok _

theorem down2Point_raises (hs : ReadsRaise E s) (n : Nat) : Raises E (down2Point s n) := .rowOf fun _ => hs _

theorem down2Linear_raises (hs : ReadsRaise E s) (n : Nat) : Raises E (down2Linear s n) :=
  .rowOf fun _ => .bind (hs _) fun _ => .bind (hs _) fun _ => .ok _

theorem down2Box_raises (hs : ReadsRaise E s) (ht : ReadsRaise E t) (n : Nat) : Raises E (down2Box s t n) :=
  .rowOf fun _ => .bind (hs _) fun _ => .bind (hs _) fun _ => .bind (ht _) fun _ => .bind (ht _) fun _ => .ok _

theorem down4Point_raises (hs : ReadsRaise E s) (n : Nat) : Raises E (down4Point s n) := .rowOf fun _ => hs _

theorem down4Box_raises (hs : ReadsRaise E s) (ht : ReadsRaise E t) (hu : ReadsRaise E u) (hv : ReadsRaise E v)
    (n : Nat) : Raises E (down4Box s t u v n) :=
  .rowOf fun _ => .bind (sumRun_raises hs _ _) fun _ => .bind (sumRun_raises ht _ _) fun _ =>
    .bind (sumRun_raises hu _ _) fun _ => .bind (sumRun_raises hv _ _) fun _ => .ok _

theorem down34Point_raises (hs : ReadsRaise E s) (n : Nat) : Raises E (down34Point s n) := by
  refine .rowOf fun i => ?_
  dsimp only
  split <;> exact hs _

theorem down34H_raises (hs : ReadsRaise E s) (g k : Nat) : Raises E (down34H s g k) := by
  unfold down34H
  split <;> exact .bind (hs _) fun _ => .bind (hs _) fun _ => .ok _

theorem down34Box0_raises (hs : ReadsRaise E s) (ht : ReadsRaise E t) (n : Nat) : Raises E (down34Box0 s t n) :=
  .rowOf fun _ => .bind (down34H_raises hs _ _) fun _ => .bind (down34H_raises ht _ _) fun _ => .ok _

theorem down34Box1_raises (hs : ReadsRaise E s) (ht : ReadsRaise E t) (n : Nat) : Raises E (down34Box1 s t n) :=
  .rowOf fun _ => .bind (down34H_raises hs _ _) fun _ => .bind (down34H_raises ht _ _) fun _ => .ok _

theorem down38Point_raises (hs : ReadsRaise E s) (n : Nat) : Raises E (down38Point s n) := by
  refine .rowOf fun i => ?_
  dsimp only
  split <;> exact hs _

theorem down38Box3_raises (hs : ReadsRaise E s) (ht : ReadsRaise E t) (hu : ReadsRaise E u) (n : Nat) :
    Raises E (down38Box3 s t u n) :=
  .rowOf fun _ => .bind (sumRun_raises hs _ _) fun _ => .bind (sumRun_raises ht _ _) fun _ =>
    .bind (sumRun_raises hu _ _) fun _ => .ok _

theorem down38Box2_raises (hs : ReadsRaise E s) (ht : ReadsRaise E t) (n : Nat) : Raises E (down38Box2 s t n) :=
  .rowOf fun _ => .bind (sumRun_raises hs _ _) fun _ => .bind (sumRun_raises ht _ _) fun _ => .ok _

theorem up2LinearCore_raises (oob : E .oob) (hs : ReadsRaise E s) (p : Nat) (d : Row) (o : Nat) :
    Raises E (up2LinearCore s p d o) := by
  induction p with
  | zero => exact .ok _
  | succ k ih =>
    exact .bind ih fun _ => .bind (hs _) fun _ => .bind (hs _) fun _ => .bind (setAt_raises oob _ _ _) fun _ =>
      setAt_raises oob _ _ _

theorem up2Linear_raises (oob : E .oob) (hs : ReadsRaise E s) (n : Nat) : Raises E (up2Linear s n) :=
  .bind (hs _) fun _ => .bind (setAt_raises oob _ _ _) fun _ => .bind (up2LinearCore_raises oob hs _ _ _) fun _ =>
    .bind (hs _) fun _ => setAt_raises oob _ _ _

theorem up2BilinearCore_raises (oob : E .oob) (hs : ReadsRaise E s) (ht : ReadsRaise E t) (p : Nat) (de : Row × Row)
    (o : Nat) : Raises E (up2BilinearCore s t p de o) := by
  induction p with
  | zero => exact .ok _
  | succ k ih =>
    exact .bind ih fun _ => .bind (hs _) fun _ => .bind (hs _) fun _ => .bind (ht _) fun _ => .bind (ht _) fun _ =>
      .bind (setAt_raises oob _ _ _) fun _ => .bind (setAt_raises oob _ _ _) fun _ =>
      .bind (setAt_raises oob _ _ _) fun _ => .bind (setAt_raises oob _ _ _) fun _ => .ok _

theorem up2Bilinear_raises (oob : E .oob) (hs : ReadsRaise E s) (ht : ReadsRaise E t) (n : Nat) :
    Raises E (up2Bilinear s t n) :=
  .bind (hs _) fun _ => .bind (ht _) fun _ => .bind (setAt_raises oob _ _ _) fun _ =>
    .bind (setAt_raises oob _ _ _) fun _ => .bind (up2BilinearCore_raises oob hs ht _ _ _) fun _ =>
    .bind (hs _) fun _ => .bind (ht _) fun _ => .bind (setAt_raises oob _ _ _) fun _ =>
    .bind (setAt_raises oob _ _ _) fun _ => .ok _

theorem colsPoint_raises (hs : ReadsRaise E s) (n : Nat) (x dx : Int) : Raises E (colsPoint s n x dx) :=
  .rowOf fun _ => hs _

theorem blendAt_raises (hs : ReadsRaise E s) (xi w : Int) (sh : Nat) : Raises E (blendAt s xi w sh) :=
  .bind (hs _) fun _ => .ite (.ok _) (.bind (hs _) fun _ => .ok _)

theorem colsBlend16_raises (hs : ReadsRaise E s) (n : Nat) (x dx : Int) : Raises E (colsBlend16 s n x dx) :=
  .rowOf fun _ => blendAt_raises hs _ _ _

theorem colsBlend8_raises (hs : ReadsRaise E s) (bl : Blend8) (n : Nat) (x dx : Int) :
    Raises E (colsBlend8 bl s n x dx) := by
  refine .rowOf fun _ => ?_
  cases bl <;> exact blendAt_raises hs _ _ _

theorem horizontalFilter_raises (hs : ReadsRaise E s) (jb : PathJob) (st : ScaleStep) :
    Raises E (horizontalFilter jb st s) := by
  refine .ite (colsPoint_raises hs _ _ _) ?_
  cases sampleWidth jb.op
  · exact colsBlend8_raises hs _ _ _ _
  · exact colsBlend16_raises hs _ _ _

theorem interp_raises (hs : ReadsRaise E s) (ht : ReadsRaise E t) (n f8 : Nat) : Raises E (interp s t n f8) :=
  .rowOf fun _ => .bind (hs _) fun _ => .ite (.ok _) (.bind (ht _) fun _ => .ok _)

theorem addRow_raises (oob : E .oob) (hs : ReadsRaise E s) (sw : SampleWidth) (acc : Row) (w : Nat) :
    Raises E (addRow sw s acc w) :=
  .bind (.rowOf fun _ => .bind (listRow_readsRaise oob acc _) fun _ => .bind (hs _) fun _ => .ok _) fun _ => .ok _

theorem addCols_raises (oob : E .oob) (br : BoxRound) (sw : SampleWidth) (acc : Row) (bh n : Nat) (x dx : Int) :
    Raises E (addCols br sw acc bh n x dx) :=
  .ite (.rowOf fun _ => .bind (sumRun_raises (listRow_readsRaise oob acc) _ _) fun _ => .ok _)
    (.rowOf fun _ => .bind (sumRun_raises (listRow_readsRaise oob acc) _ _) fun _ => .ok _)

end

/-! ### The rows of a path -/

section
variable {E : Err → Prop} (oob : E .oob) (jb : PathJob)
include oob

theorem jobRow_readsRaise (r : Int) : ReadsRaise E (jobRow jb r) := srcRow_readsRaise oob _ _ _ r

theorem copyRows_raises : Raises E (copyRows jb) := .planeOf fun _ => .rowOf fun _ => jobRow_readsRaise oob jb _ _

theorem verticalRows_raises (st : ScaleStep) : Raises E (verticalRows jb st) :=
  .planeOf fun _ => interp_raises (jobRow_readsRaise oob jb _) (jobRow_readsRaise oob jb _) _ _

theorem down2Rows_raises : Raises E (down2Rows jb) := by
  have hrow := jobRow_readsRaise oob jb
  refine .planeOf fun j => ?_
  cases jb.mode
  case none => exact down2Point_raises (hrow _) _
  case linear => exact down2Linear_raises (hrow _) _
  case bilinear | box => exact down2Box_raises (hrow _) (hrow _) _

theorem down4Rows_raises : Raises E (down4Rows jb) := by
  have hrow := jobRow_readsRaise oob jb
  exact .planeOf fun j => .ite (down4Point_raises (hrow _) _) (down4Box_raises (hrow _) (hrow _) (hrow _) (hrow _) _)

theorem down34K0_raises (a b : Int) : Raises E (down34K0 jb a b) := by
  have hrow := jobRow_readsRaise oob jb
  unfold down34K0
  cases jb.mode
  case none => exact down34Point_raises (hrow _) _
  all_goals exact down34Box0_raises (hrow _) (hrow _) _

theorem down34K1_raises (a b : Int) : Raises E (down34K1 jb a b) := by
  have hrow := jobRow_readsRaise oob jb
  unfold down34K1
  cases jb.mode
  case none => exact down34Point_raises (hrow _) _
  all_goals exact down34Box1_raises (hrow _) (hrow _) _

theorem down34Rows_raises : Raises E (down34Rows jb) := by
  have hK0 := down34K0_raises oob jb
  have hK1 := down34K1_raises oob jb
  refine .planeOf fun j => .ite ?_ (.ite ?_ (hK0 _ _))
  · split
    · exact hK0 _ _
    · exact hK1 _ _
    · exact hK0 _ _
  · split
    · exact hK0 _ _
    · exact hK1 _ _

theorem down38K3_raises (a b c : Int) : Raises E (down38K3 jb a b c) := by
  have hrow := jobRow_readsRaise oob jb
  unfold down38K3
  cases jb.mode
  case none => exact down38Point_raises (hrow _) _
  all_goals exact down38Box3_raises (hrow _) (hrow _) (hrow _) _

theorem down38K2_raises (a b : Int) : Raises E (down38K2 jb a b) := by
  have hrow := jobRow_readsRaise oob jb
  unfold down38K2
  cases jb.mode
  case none => exact down38Point_raises (hrow _) _
  all_goals exact down38Box2_raises (hrow _) (hrow _) _

theorem down38Rows_raises : Raises E (down38Rows jb) := by
  have hK3 := down38K3_raises oob jb
  have hK2 := down38K2_raises oob jb
  refine .planeOf fun j => .ite ?_ (.ite ?_ (hK3 _ _ _))
  · split
    · exact hK3 _ _ _
    · exact hK3 _ _ _
    · exact hK2 _ _
  · split
    · exact hK3 _ _ _
    · exact hK3 _ _ _

theorem accumulate_raises (iy : Int) (k : Nat) : Raises E (accumulate jb iy k) := by
  induction k with
  | zero => exact .ok _
  | succ k ih => exact .bind ih fun _ => addRow_raises oob (jobRow_readsRaise oob jb _) _ _ _

theorem boxRowsFrom_raises (st : ScaleStep) (n j : Nat) (yj : Int) : Raises E (boxRowsFrom jb st n j yj) := by
  induction n generalizing j yj with
  | zero => exact .ok _
  | succ n ih =>
    exact .bind (accumulate_raises oob jb _ _) fun _ => .bind (addCols_raises oob _ _ _ _ _ _ _) fun _ =>
      .bind (ih _ _) fun _ => .ok _

theorem up2LinearRows_raises {src : Int → Reader} (hsrc : ∀ r, ReadsRaise E (src r)) :
    Raises E (up2LinearRows jb src) :=
  .ite (.bind (up2Linear_raises oob (hsrc _) _) fun _ => .ok _) (.planeOf fun _ => up2Linear_raises oob (hsrc _) _)

theorem up2BilinearPairs_raises {src : Int → Reader} (hsrc : ∀ r, ReadsRaise E (src r)) (k : Nat) :
    Raises E (up2BilinearPairs jb src k) := by
  induction k with
  | zero => exact .ok _
  | succ k ih => exact .bind ih fun _ => .bind (up2Bilinear_raises oob (hsrc _) (hsrc _) _) fun _ => .ok _

theorem up2BilinearRows_raises {src : Int → Reader} (hsrc : ∀ r, ReadsRaise E (src r)) :
    Raises E (up2BilinearRows jb src) :=
  .bind (up2Bilinear_raises oob (hsrc _) (hsrc _) _) fun _ => .bind (up2BilinearPairs_raises oob jb hsrc _) fun _ =>
    .ite (.bind (up2Bilinear_raises oob (hsrc _) (hsrc _) _) fun _ => .ok _) (.ok _)

theorem bilinearUpRows_raises (st : ScaleStep) : Raises E (bilinearUpRows jb st) := by
  have hfilter := fun r => horizontalFilter_raises (jobRow_readsRaise oob jb r) jb st
  have hlist := listRow_readsRaise oob
  exact .planeOf fun j => .ite
    (.bind (hfilter _) fun _ => .ite (.ok _) (.bind (hfilter _) fun _ => interp_raises (hlist _) (hlist _) _ _))
    (hfilter _)

theorem bilinearDownRows_raises (st : ScaleStep) : Raises E (bilinearDownRows jb st) := by
  have hrow := jobRow_readsRaise oob jb
  exact .planeOf fun j => .ite
    (.bind (interp_raises (hrow _) (hrow _) _ _) fun _ =>
      horizontalFilter_raises (listRow_readsRaise oob _) jb st)
    (horizontalFilter_raises (hrow _) jb st)

theorem simpleRows_raises (st : ScaleStep) : Raises E (simpleRows jb st) :=
  .planeOf fun _ => colsPoint_raises (jobRow_readsRaise oob jb _) _ _ _

/-- A range-checked path raises ERR_RANGE12 beside what its rows raise (R243). -/
theorem rangeCheckedRows_raises (range12 : E .range12) {rows : (Int → Reader) → Res RowWrites}
    (hrows : ∀ src, (∀ r, ReadsRaise E (src r)) → Raises E (rows src)) : Raises E (rangeCheckedRows jb rows) := by
  have hrow := jobRow_readsRaise oob jb
  have hchecked : ∀ r, ReadsRaise E (rangeChecked (jobRow jb r)) :=
    fun r c => .bind (hrow r c) fun _ => .ite (.error range12) (.ok _)
  exact .bind (hrows _ hrow) fun _ => .bind (hrows _ hchecked) fun _ => .ok _

end

/-! ### The errors of a path and of its checks -/

/-- The errors that STATUS can report beside the path (R311). -/
def FitsPath (path : PathCode) (e : Err) : Prop := errFitsPath e (some path) = true

theorem pathRows_raises (path : PathCode) (jb : PathJob) (st : ScaleStep) :
    Raises (FitsPath path) (pathRows path jb st) := by
  have oob : FitsPath path .oob := rfl
  have hrow := jobRow_readsRaise oob jb
  cases path
  case copy => exact copyRows_raises oob jb
  case vertical => exact verticalRows_raises oob jb st
  case down34 => exact down34Rows_raises oob jb
  case down2 => exact down2Rows_raises oob jb
  case down38 => exact down38Rows_raises oob jb
  case down4 => exact down4Rows_raises oob jb
  case box => exact boxRowsFrom_raises oob jb st _ _ _
  case up2Linear => exact up2LinearRows_raises oob jb hrow
  case up2Bilinear => exact up2BilinearRows_raises oob jb hrow
  case bilinearUp => exact bilinearUpRows_raises oob jb st
  case bilinearDown => exact bilinearDownRows_raises oob jb st
  case simple => exact simpleRows_raises oob jb st
  case up2Linear12 => exact rangeCheckedRows_raises oob jb rfl fun _ => up2LinearRows_raises oob jb
  case up2Bilinear12 => exact rangeCheckedRows_raises oob jb rfl fun _ => up2BilinearRows_raises oob jb

/-- Every error of a running path fits the path (R67, R243). -/
theorem pathWrites_error_fits {path : PathCode} {jb : PathJob} {st : ScaleStep} {e : Err}
    (h : pathWrites path jb st = .error e) : FitsPath path e := by
  have oob : FitsPath path .oob := rfl
  exact Raises.bind (pathRows_raises path jb st) (fun _ => .ite (.ok _) (.error oob)) e h

/-- Only the paths with a scratch demand can fail the scratch check (R255). -/
theorem alloc_fits_of_scratchDemand {op : ScaleOp} {pl : Planes} {path : PathCode} {n : Nat}
    (h : n < scratchDemand op pl path) : FitsPath path .alloc := by
  cases path
  case box | bilinearUp | bilinearDown => rfl
  all_goals exact absurd h (Nat.not_lt_zero n)

/-- Every failure of a check after dispatch fits the selected path (R311). -/
theorem postCheck_fails_fits {cfg : Config} {op : ScaleOp} {pl : Planes} {path : PathCode} {e : Err}
    (h : postCheck cfg op pl path = .fails e) : FitsPath path e := by
  unfold postCheck at h
  split_ifs at h with mirrorBox _ oob bus overlap alloc <;> cases h
  · obtain rfl := mirrorBox.1
    rfl
  · rfl
  · rfl
  · rfl
  · exact alloc_fits_of_scratchDemand alloc

end Sys2Proof.Proofs.PathErrors

/-! PROOFS. What the machine's steps keep (R34, R37, R38, R42, R151, R311, R342): a command ends Idle with DONE = 1 and the
host's registers as they were, and every step, the host's too, keeps memory, STATUS, STEP_* and the phase in agreement. -/

namespace Sys2Proof.Proofs.StateInvariant

open Sys2Proof Sys2Proof.Machine Sys2Proof.Proofs.KernelAnswers Sys2Proof.Proofs.DispatchPairs
  Sys2Proof.Proofs.PathErrors

/-! ### The three kinds of step -/

theorem turn_cases (s : State) : (∃ u, engineTurn s u) ∨ ∃ a rest, s.pending = .host a :: rest := by
  rcases hp : s.pending with _ | ⟨_ | a, rest⟩
  · exact .inl ⟨s, .inl ⟨hp, rfl⟩⟩
  · exact .inl ⟨_, .inr ⟨rest, hp, rfl⟩⟩
  · exact .inr ⟨a, rest, rfl⟩

theorem step_busy {s u : State} {c : Latched} {d : Bool} (h : s.phase = .busy c d) (hu : engineTurn s u) :
    step s = engineStep c u := by
  rcases hu with ⟨hp, rfl⟩ | ⟨rest, hp, rfl⟩ <;> simp only [step, hp, h]

theorem step_idle {s u : State} (h : s.phase = .idle) (hu : engineTurn s u) : step s = .next u := by
  rcases hu with ⟨hp, rfl⟩ | ⟨rest, hp, rfl⟩ <;> simp only [step, hp, h]

theorem step_host {s : State} {a : HostAction} {rest : List Event} (h : s.pending = .host a :: rest) :
    step s = hostStep a { s with pending := rest } := by
  simp only [step, h]

/-- Everything the engine step of a running command can do: a scaling command runs, or the command ends at once, as NOP
and as what is no command (R266, R260, R268, R84). -/
theorem engineStep_cases (c : Latched) (s : State) :
    (∃ op f, engineStep c s = .next (runCommand op f s)) ∨
    (∃ e, (e = none ∨ e = some .cmd) ∧ engineStep c s = .next (endCommand e (clearStatus s))) := by
  unfold engineStep decode
  split_ifs
  · exact .inr ⟨_, .inr rfl, rfl⟩
  · exact .inr ⟨_, .inr rfl, rfl⟩
  · dsimp only
    unfold decodeOp
    split
    · exact .inr ⟨_, .inl rfl, rfl⟩
    · exact .inl ⟨.scale8, _, rfl⟩
    · exact .inl ⟨.scale16, _, rfl⟩
    · exact .inl ⟨.scale12, _, rfl⟩
    · exact .inl ⟨.scale16to8, _, rfl⟩
    all_goals exact .inr ⟨_, .inr rfl, rfl⟩

/-! ### The host's side of a command (R37) -/

theorem sameHostSide_clearStatus (s : State) : SameHostSide s (clearStatus s) := ⟨rfl, rfl, rfl, rfl, rfl, rfl⟩

theorem sameHostSide_endCommand (e : Option Err) (s : State) : SameHostSide s (endCommand e s) := by
  obtain ⟨_, _, _, _, _, _, _, _, _, h⟩ := endCommand_report e s
  exact h

theorem sameHostSide_runPath (path : PathCode) (op : ScaleOp) (pl : Planes) (m : FilterMode) (s : State) :
    SameHostSide s (runPath path op pl m s).1 := by
  rcases runPath_cases path op pl m s with ⟨e, _, hr⟩ | ⟨_, hr⟩ | ⟨w, _, _, hr⟩ | ⟨e, _, _, hr⟩ <;> rw [hr] <;>
    exact ⟨rfl, rfl, rfl, rfl, rfl, rfl⟩

theorem sameHostSide_runCommand (op : ScaleOp) (f : FilterMode) (s : State) : SameHostSide s (runCommand op f s) := by
  rcases runCommand_cases op f s with ⟨e, -, hr⟩ | ⟨-, hr⟩ <;> rw [hr]
  · exact sameHostSide_trans (sameHostSide_clearStatus s) (sameHostSide_endCommand _ _)
  · refine sameHostSide_trans ?_ (sameHostSide_endCommand _ _)
    exact sameHostSide_trans (t := setEffFilter _ (clearStatus s)) ⟨rfl, rfl, rfl, rfl, rfl, rfl⟩
      (sameHostSide_runPath _ _ _ _ _)

theorem runCommand_ends (op : ScaleOp) (f : FilterMode) (s : State) :
    (runCommand op f s).phase = .idle ∧ (runCommand op f s).done = true := by
  rcases runCommand_cases op f s with ⟨e, -, hr⟩ | ⟨-, hr⟩ <;> rw [hr] <;> exact ⟨rfl, rfl⟩

/-- Settles O14: every latched word ends as a scaling command or at once (R342). -/
theorem engineStepCompletes : Obligations.EngineStepCompletes := by
  unfold Obligations.EngineStepCompletes
  intro s u c d hbusy hturn
  rw [step_busy hbusy hturn]
  rcases engineStep_cases c u with ⟨op, f, hr⟩ | ⟨e, -, hr⟩
  · obtain ⟨hphase, hdone⟩ := runCommand_ends op f u
    exact ⟨_, hr, hphase, hdone, sameHostSide_runCommand op f u⟩
  · exact ⟨_, hr, rfl, rfl, sameHostSide_trans (sameHostSide_clearStatus u) (sameHostSide_endCommand e _)⟩

/-! ### The invariant under steps that leave the report alone -/

/-- The visible report of the last command is the same in both states. -/
structure SameReport (s t : State) : Prop where
  busy : isBusy t = isBusy s
  done : t.done = s.done
  err : t.err = s.err
  path : t.path = s.path
  effFilter : t.effFilter = s.effFilter
  steps : stepsZero t = stepsZero s

theorem inv_of_sameReport {s t : State} (h : Inv s) (hmem : Memory.wf t.mem = true) (hsame : SameReport s t) : Inv t := by
  obtain ⟨hbusy, hdone, herr, hpath, hfilter, hsteps⟩ := hsame
  constructor
  · exact hmem
  · rw [hbusy, hdone]; exact h.busyNotDone
  · rw [hdone, herr, hpath]; exact h.notDoneClear
  · rw [hpath, hfilter, hsteps]; exact h.noPathClear
  · rw [hpath, hfilter]; exact h.pathPair
  · rw [hpath, hsteps]; exact h.pathSteps
  · rw [herr, hpath]; exact h.errPath

theorem inv_engineTurn {s u : State} (h : Inv s) (hu : engineTurn s u) : Inv u := by
  rcases hu with ⟨-, rfl⟩ | ⟨rest, -, rfl⟩
  · exact h
  · exact inv_of_sameReport h h.memCanonical ⟨rfl, rfl, rfl, rfl, rfl, rfl⟩

/-! ### Host accesses -/

theorem isBusy_disturb (s : State) : isBusy (disturb s) = isBusy s := by
  unfold disturb
  split <;> rename_i h <;> simp [isBusy, h]

theorem sameReport_disturb (s : State) : SameReport s (disturb s) :=
  ⟨isBusy_disturb s, by simp, by simp, by simp, by simp, by simp [stepsZero]⟩

theorem inv_startCommand {s : State} (w : Word) (h : Memory.wf s.mem = true) : Inv (startCommand w s) :=
  ⟨h, fun _ => rfl, fun _ => ⟨rfl, rfl⟩, fun _ => ⟨rfl, rfl⟩, nofun, nofun, nofun⟩

theorem inv_resetInput {s : State} (h : Memory.wf s.mem = true) : Inv (resetInput s) :=
  ⟨wf_resetInput s h, fun _ => rfl, fun _ => ⟨rfl, rfl⟩, fun _ => ⟨rfl, rfl⟩, nofun, nofun, nofun⟩

theorem inv_writeRegIdle {s : State} (h : Inv s) (r : Reg) (v : Word) : Inv (writeRegIdle r v s) := by
  cases r
  case cmd => exact iteInduction (fun _ => inv_startCommand v h.memCanonical) fun _ => h
  case status | stepX | stepY | stepDX | stepDY => exact h
  all_goals exact inv_of_sameReport h h.memCanonical ⟨rfl, rfl, rfl, rfl, rfl, rfl⟩

theorem inv_writeOffset {s : State} (h : Inv s) (off : Nat) (v : Word) : Inv (writeOffset off v s) := by
  unfold writeOffset
  split
  · exact h
  · split
    · exact inv_writeRegIdle h _ v
    · exact h

theorem inv_hostRegRead {s t : State} {addr : BitVec 64} (h : Inv s) (ht : hostRegRead addr s = .next t) : Inv t := by
  rcases hostRegRead_cases addr s with ⟨-, hr⟩ | ⟨_, -, -, hr⟩ | ⟨_, -, -, hr⟩ <;> cases hr.symm.trans ht
  · exact h
  · exact inv_of_sameReport h h.memCanonical ⟨rfl, rfl, rfl, rfl, rfl, rfl⟩

theorem inv_hostRegWrite {s t : State} {addr : BitVec 64} {v : Word} (h : Inv s) (ht : hostRegWrite addr v s = .next t) :
    Inv t := by
  rcases hostRegWrite_cases addr v s with ⟨-, hr⟩ | ⟨_, -, -, hr⟩ | ⟨_, -, -, hr⟩ <;> cases hr.symm.trans ht
  · exact h
  · exact inv_writeOffset h _ v

theorem inv_hostMemRead {s t : State} {addr : BitVec 64} (h : Inv s) (ht : hostMemRead addr s = .next t) : Inv t := by
  unfold hostMemRead at ht
  dsimp only at ht
  split_ifs at ht <;> cases ht <;> exact inv_of_sameReport h h.memCanonical ⟨rfl, rfl, rfl, rfl, rfl, rfl⟩

theorem inv_hostMemWrite {s t : State} {addr : BitVec 64} {v : Byte} (h : Inv s) (ht : hostMemWrite addr v s = .next t) :
    Inv t := by
  have hmem := wf_write s.mem addr.toNat v h.memCanonical
  have hwritten : Inv { s with mem := Memory.write s.mem addr.toNat v } :=
    inv_of_sameReport h hmem ⟨rfl, rfl, rfl, rfl, rfl, rfl⟩
  unfold hostMemWrite at ht
  dsimp only at ht
  split_ifs at ht <;> cases ht
  · exact inv_of_sameReport hwritten (by rwa [disturb_mem]) (sameReport_disturb _)
  · exact hwritten

theorem inv_hostStep {s t : State} {a : HostAction} (h : Inv s) (ht : hostStep a s = .next t) : Inv t := by
  cases a
  case regRead addr => exact inv_hostRegRead h ht
  case regWrite addr v => exact inv_hostRegWrite h ht
  case memRead addr => exact inv_hostMemRead h ht
  case memWrite addr v => exact inv_hostMemWrite h ht
  case reset =>
    cases ht
    exact inv_resetInput h.memCanonical

/-! ### The engine step -/

/-- The report that the end of a command makes visible is in agreement (R34, R38, R151, R311). -/
structure Reportable (e : Option Err) (s : State) : Prop where
  memCanonical : Memory.wf s.mem = true
  noPathClear : s.path = none → s.effFilter = .none ∧ stepsZero s = true
  pathPair : ∀ p, s.path = some p → reachablePair p s.effFilter = true
  pathSteps : ∀ p, s.path = some p → computesStep p = false → stepsZero s = true
  errPath : ∀ x, e = some x → errFitsPath x s.path = true

theorem stepsZero_endCommand (e : Option Err) (s : State) : stepsZero (endCommand e s) = stepsZero s := by
  simp [stepsZero]

theorem inv_endCommand {e : Option Err} {s : State} (h : Reportable e s) : Inv (endCommand e s) := by
  obtain ⟨hmem, hclear, hpair, hsteps, herr⟩ := h
  constructor
  · exact wf_endCommand e s hmem
  · rw [isBusy_endCommand]; nofun
  · rw [endCommand_done]; nofun
  · rwa [endCommand_path, endCommand_effFilter, stepsZero_endCommand]
  · rwa [endCommand_path, endCommand_effFilter]
  · rwa [endCommand_path, stepsZero_endCommand]
  · rwa [endCommand_err, endCommand_path]

theorem reportable_clearStatus {s : State} (h : Memory.wf s.mem = true) {e : Option Err}
    (he : ∀ x, e = some x → errFitsPath x none = true) : Reportable e (clearStatus s) :=
  ⟨h, fun _ => ⟨rfl, rfl⟩, nofun, nofun, he⟩

/-- A check before dispatch raises an error that fits PATH = 0 (R311 steps 2 to 4). -/
theorem preCheck_fits {cfg : Config} {op : ScaleOp} {pl : Planes} {e : Err} (h : preCheck cfg op pl = some e) :
    errFitsPath e none = true := by
  unfold preCheck at h
  split_ifs at h <;> cases h <;> rfl

theorem stepsZero_setStep_pathStep {path : PathCode} (h : computesStep path = false) (pl : Planes) (m : FilterMode)
    (s : State) : stepsZero (setStep (pathStep pl path m) s) = true := by
  cases path
  case vertical | box | bilinearUp | bilinearDown | simple => exact absurd h (by decide)
  all_goals rfl

/-- A path that dispatch may select with this mode leaves a report in agreement (R266). -/
theorem reportable_runPath {path : PathCode} {s : State} (op : ScaleOp) (pl : Planes)
    (hmem : Memory.wf s.mem = true) (hpair : reachablePair path s.effFilter = true) (hzero : stepsZero s = true) :
    Reportable (runPath path op pl s.effFilter s).2 (runPath path op pl s.effFilter s).1 := by
  have hwf := wf_runPath path op pl s.effFilter s hmem
  have hpair' : ∀ p, some path = some p → reachablePair p s.effFilter = true := by rintro _ ⟨⟩; exact hpair
  rcases runPath_cases path op pl s.effFilter s with ⟨e, hpost, hr⟩ | ⟨_, hr⟩ | ⟨w, _, _, hr⟩ | ⟨e, _, hwrites, hr⟩ <;>
    rw [hr] at hwf ⊢
  · exact ⟨hwf, nofun, hpair', fun _ _ _ => hzero, by rintro _ ⟨⟩; exact postCheck_fails_fits hpost⟩
  · exact ⟨hwf, nofun, hpair', fun _ _ _ => hzero, nofun⟩
  · exact ⟨hwf, nofun, hpair', by rintro _ ⟨⟩ hno; exact stepsZero_setStep_pathStep hno pl _ s, nofun⟩
  · exact ⟨hwf, nofun, hpair', by rintro _ ⟨⟩ hno; exact stepsZero_setStep_pathStep hno pl _ s,
      by rintro _ ⟨⟩; exact pathWrites_error_fits hwrites⟩

theorem inv_runCommand {s : State} (h : Memory.wf s.mem = true) (op : ScaleOp) (f : FilterMode) :
    Inv (runCommand op f s) := by
  rcases runCommand_cases op f s with ⟨e, hpre, hr⟩ | ⟨hpre, hr⟩ <;> rw [hr]
  · exact inv_endCommand (reportable_clearStatus h (by rintro _ ⟨⟩; exact preCheck_fits hpre))
  · exact inv_endCommand (reportable_runPath (s := setEffFilter _ (clearStatus s)) op _ h
      (dispatch_reachablePair hpre f) rfl)

theorem inv_engineStep {c : Latched} {s t : State} (h : Memory.wf s.mem = true) (ht : engineStep c s = .next t) :
    Inv t := by
  rcases engineStep_cases c s with ⟨op, f, hr⟩ | ⟨e, he, hr⟩ <;> cases hr.symm.trans ht
  · exact inv_runCommand h op f
  · refine inv_endCommand (reportable_clearStatus h ?_)
    rcases he with rfl | rfl
    · nofun
    · rintro _ ⟨⟩
      rfl

/-- Settles O12, by whose turn it is: the engine's, of a running command or of an Idle machine, or the host's. -/
theorem invKeptByStep : Obligations.InvKeptByStep := by
  unfold Obligations.InvKeptByStep
  intro s t h ht
  rcases turn_cases s with ⟨u, hu⟩ | ⟨a, rest, hp⟩
  · have hinv := inv_engineTurn h hu
    rcases hph : s.phase with _ | ⟨c, d⟩
    · cases (step_idle hph hu).symm.trans ht
      exact hinv
    · exact inv_engineStep hinv.memCanonical ((step_busy hph hu).symm.trans ht)
  · have hinv : Inv { s with pending := rest } :=
      inv_of_sameReport h h.memCanonical ⟨rfl, rfl, rfl, rfl, rfl, rfl⟩
    exact inv_hostStep hinv ((step_host hp).symm.trans ht)

end Sys2Proof.Proofs.StateInvariant

/-! PROOFS. The two footprints (R64, R66, R68): a sample's address, its little-endian value, and the byte ranges of the
checks as the bytes of the samples. -/

namespace Sys2Proof.Proofs.Footprints

open Sys2Proof Sys2Proof.Machine

/-! ### Logical addresses -/

theorem srcBytes_eq (op : ScaleOp) : srcBytes op = if op = .scale8 then 1 else 2 := by cases op <;> rfl

theorem dstBytes_eq (op : ScaleOp) : dstBytes op = if op = .scale16 ∨ op = .scale12 then 2 else 1 := by
  cases op <;> rfl

theorem srcWidth_cast (pl : Planes) : (srcWidth pl : Int) = |pl.srcW.toInt| := Int.natCast_natAbs _

theorem srcHeight_cast (pl : Planes) : (srcHeight pl : Int) = |pl.srcH.toInt| := Int.natCast_natAbs _

theorem physRow_lt {pl : Planes} {r : Nat} (h : r < srcHeight pl) : physRow pl r < srcHeight pl := by
  unfold physRow
  split <;> omega

/-- The vertical mirror undoes itself (R64). -/
theorem physRow_physRow {pl : Planes} {r : Nat} (h : r < srcHeight pl) : physRow pl (physRow pl r) = r := by
  unfold physRow
  split <;> omega

theorem physRow_cast {pl : Planes} {r : Nat} (h : r < srcHeight pl) :
    (physRow pl r : Int) = if 0 < pl.srcH.toInt then (r : Int) else |pl.srcH.toInt| - 1 - r := by
  rw [← srcHeight_cast]
  unfold physRow
  split <;> omega

theorem srcPhysAddr_col (op : ScaleOp) (pl : Planes) (r c : Nat) :
    srcPhysAddr op pl r c = srcPhysAddr op pl r 0 + c * srcBytes op := by
  unfold srcPhysAddr
  push_cast
  ring

theorem dstAddr_col (op : ScaleOp) (pl : Planes) (r c : Nat) :
    dstAddr op pl r c = dstAddr op pl r 0 + c * dstBytes op := by
  unfold dstAddr
  push_cast
  ring

/-! ### The value of a sample -/

theorem loadSample_one (m : Memory) (a : Nat) : loadSample m a 1 = (Memory.read m a).toNat := rfl

/-- A two-byte sample is little-endian (R62). -/
theorem loadSample_two (m : Memory) (a : Nat) :
    loadSample m a 2 = (Memory.read m a).toNat ||| (Memory.read m (a + 1)).toNat <<< 8 := by
  have hlow : (Memory.read m a).toNat < 2 ^ 8 := (Memory.read m a).isLt
  rw [Nat.or_comm, ← Nat.shiftLeft_add_eq_or_of_lt hlow, Nat.shiftLeft_eq]
  simp only [loadSample]
  omega

/-! ### The byte ranges of a plane -/

/-- The ranges of a plane's rows hold exactly the bytes of its samples. -/
theorem inSpans_rows_iff {h w b : Nat} {addr : Nat → Nat → Int} (hb : b = 1 ∨ b = 2)
    (hcol : ∀ r c, addr r c = addr r 0 + c * b) (a : Int) :
    inSpans ((List.range h).map fun r => (addr r 0, addr r 0 + w * b)) a = true ↔
      ∃ r c : Nat, r < h ∧ c < w ∧ addr r c ≤ a ∧ a < addr r c + b := by
  simp only [inSpans, List.any_map, List.any_eq_true, List.mem_range, Function.comp_apply, Bool.and_eq_true,
    decide_eq_true_eq]
  constructor
  · rintro ⟨r, hr, hlo, hhi⟩
    have haddr := hcol r ((a - addr r 0) / b).toNat
    refine ⟨r, ((a - addr r 0) / b).toNat, hr, ?_⟩
    rcases hb with rfl | rfl <;> omega
  · rintro ⟨r, c, hr, hc, hlo, hhi⟩
    have haddr := hcol r c
    refine ⟨r, hr, ?_⟩
    rcases hb with rfl | rfl <;> omega

theorem inSpans_dstSpans_iff (op : ScaleOp) (pl : Planes) (a : Int) :
    inSpans (dstSpans op pl) a = true ↔
      ∃ r c : Nat, r < dstHeight pl ∧ c < dstWidth pl ∧ dstAddr op pl r c ≤ a ∧ a < dstAddr op pl r c + dstBytes op :=
  inSpans_rows_iff (dstBytes_cases op) (dstAddr_col op pl) a

/-- The vertical mirror permutes the rows of the source footprint and so leaves its bytes the same (R64, R68). -/
theorem inSpans_srcSpans_iff (op : ScaleOp) (pl : Planes) (a : Int) :
    inSpans (srcSpans op pl) a = true ↔
      ∃ r c : Nat, r < srcHeight pl ∧ c < srcWidth pl ∧ srcAddr op pl r c ≤ a ∧
        a < srcAddr op pl r c + srcBytes op := by
  have hphys : inSpans (srcSpans op pl) a = true ↔ ∃ r c : Nat, r < srcHeight pl ∧ c < srcWidth pl ∧
      srcPhysAddr op pl r c ≤ a ∧ a < srcPhysAddr op pl r c + srcBytes op :=
    inSpans_rows_iff (srcBytes_cases op) (srcPhysAddr_col op pl) a
  rw [hphys]
  constructor
  · rintro ⟨r, c, hr, hc, hin⟩
    exact ⟨physRow pl r, c, physRow_lt hr, hc, by rwa [srcAddr, physRow_physRow hr]⟩
  · rintro ⟨r, c, hr, hc, hin⟩
    exact ⟨physRow pl r, c, physRow_lt hr, hc, hin⟩

/-- A byte outside the destination footprint lies beside every sample of the plane. -/
theorem beside_of_not_inSpans {op : ScaleOp} {pl : Planes} {a : Int} (h : inSpans (dstSpans op pl) a = false)
    {r c : Nat} (hr : r < dstHeight pl) (hc : c < dstWidth pl) :
    a < dstAddr op pl r c ∨ dstAddr op pl r c + dstBytes op ≤ a := by
  by_contra hin
  have hmem := (inSpans_dstSpans_iff op pl a).2 ⟨r, c, hr, hc, by omega, by omega⟩
  simp [h] at hmem

/-- Settles O20: the addresses by their definitions, and each footprint row by row. -/
theorem footprintsAreTheSamples : Obligations.FootprintsAreTheSamples := by
  unfold Obligations.FootprintsAreTheSamples
  intro op pl
  refine ⟨fun m r c hr hc => ?_, srcWidth_cast pl, srcHeight_cast pl, rfl, rfl, srcBytes_eq op, dstBytes_eq op,
    fun r c => ?_, fun a => ⟨inSpans_srcSpans_iff op pl a, inSpans_dstSpans_iff op pl a⟩⟩
  · rw [← srcHeight_cast] at hr
    rw [← srcWidth_cast] at hc
    have hrow : r < srcHeight pl := by omega
    have hcol : c < srcWidth pl := by omega
    refine ⟨?_, fun a ha => ?_⟩
    · rw [srcAddr, srcPhysAddr, physRow_cast hrow, srcBytes_eq]
      push_cast
      rfl
    · rw [srcRow_ok op pl m hrow hcol, ha, Int.toNat_natCast, srcBytes_eq]
      by_cases h8 : op = .scale8
      · simp only [h8, if_true, loadSample_one]
      · simp only [h8, if_false, loadSample_two]
        rfl
  · rw [dstAddr, dstBytes_eq]
    push_cast
    rfl

end Sys2Proof.Proofs.Footprints

/-! PROOFS. OUT on every sample of a plane (R62, R63, R66, R212): the stores of a plane as one list of sample stores,
and what a sample of that list reads back. -/

namespace Sys2Proof.Proofs.StoredPlane

open Sys2Proof Sys2Proof.Machine Sys2Proof.Proofs.Footprints

/-! ### One sample -/

/-- A sample reads back its low bytes (R63). -/
theorem loadSample_storeSample {m : Memory} (h : Memory.wf m = true) {a n : Nat} (hn : n = 1 ∨ n = 2)
    (ha : a + n ≤ 2 ^ 64) (v : Nat) : loadSample (storeSample m a n v) a n = v % 256 ^ n := by
  rcases hn with rfl | rfl
  · exact loadSample_storeSample_one h (by omega) v
  · exact loadSample_storeSample_two h (by omega) v

/-- The bytes of a two-byte sample, little-endian (R62). -/
theorem read_of_loadSample_two (m : Memory) (a : Nat) :
    Memory.read m a = BitVec.ofNat 8 (loadSample m a 2) ∧
    Memory.read m (a + 1) = BitVec.ofNat 8 (loadSample m a 2 / 256) := by
  have hlow := (Memory.read m a).isLt
  have hhigh := (Memory.read m (a + 1)).isLt
  constructor <;> apply BitVec.eq_of_toNat_eq <;> simp only [loadSample, BitVec.toNat_ofNat] <;> omega

/-- The first byte of a sample is its low byte (R62). -/
theorem read_of_loadSample {n : Nat} (hn : n = 1 ∨ n = 2) (m : Memory) (a : Nat) :
    Memory.read m a = BitVec.ofNat 8 (loadSample m a n) := by
  rcases hn with rfl | rfl
  · rw [loadSample_one, BitVec.ofNat_toNat, BitVec.setWidth_eq]
  · exact (read_of_loadSample_two m a).1

/-! ### A list of sample stores -/

section
variable {ι : Type} {n : Nat} (hn : n = 1 ∨ n = 2) (addr val : ι → Nat)
include hn

/-- Sample stores change only the bytes of their samples. -/
theorem read_foldl_storeSample_other (l : List ι) (m : Memory) {b : Nat}
    (hb : ∀ p ∈ l, b < addr p ∨ addr p + n ≤ b) :
    Memory.read (l.foldl (fun m p => storeSample m (addr p) n (val p)) m) b = Memory.read m b := by
  induction l generalizing m with
  | nil => rfl
  | cons p rest ih =>
    rw [List.foldl_cons, ih _ fun q hq => hb q (List.mem_cons_of_mem _ hq),
      read_storeSample_other m hn (hb p List.mem_cons_self)]

/-- Of sample stores no two of which share a byte, each sample reads back its own value. -/
theorem loadSample_foldl_storeSample {l : List ι} {m : Memory} (h : Memory.wf m = true) {p : ι} (hp : p ∈ l)
    (hspace : addr p + n ≤ 2 ^ 64)
    (hapart : ∀ q ∈ l, q ≠ p → addr p + n ≤ addr q ∨ addr q + n ≤ addr p) :
    loadSample (l.foldl (fun m p => storeSample m (addr p) n (val p)) m) (addr p) n = val p % 256 ^ n := by
  induction l generalizing m with
  | nil => simp at hp
  | cons q rest ih =>
    have hrest : ∀ x ∈ rest, x ≠ p → addr p + n ≤ addr x ∨ addr x + n ≤ addr p :=
      fun x hx => hapart x (List.mem_cons_of_mem _ hx)
    by_cases hpr : p ∈ rest
    · exact ih (wf_storeSample _ _ _ _ h) hpr hrest
    · obtain rfl : p = q := (List.mem_cons.1 hp).resolve_right hpr
      rw [List.foldl_cons, ← loadSample_storeSample h hn hspace (val p)]
      refine loadSample_congr hn fun b hlo hhi => read_foldl_storeSample_other hn addr val rest _ fun x hx => ?_
      have := hrest x hx fun hxp => hpr (hxp ▸ hx)
      omega

end

/-! ### The stores of a plane -/

/-- The samples (r, c) of the destination plane, in the order of OUT. -/
def planeSamples (pl : Planes) : List (Nat × Nat) :=
  (List.range (dstHeight pl)).product (List.range (dstWidth pl))

theorem mem_planeSamples {pl : Planes} {r c : Nat} :
    (r, c) ∈ planeSamples pl ↔ r < dstHeight pl ∧ c < dstWidth pl := by
  rw [planeSamples, List.pair_mem_product, List.mem_range, List.mem_range]

theorem storeRow_eq_foldl (op : ScaleOp) (pl : Planes) (r : Nat) (g : Nat → Nat) (c n : Nat) (m : Memory) :
    storeRow op pl r c ((List.range' c n).map g) m =
      (List.range' c n).foldl
        (fun m c => storeSample m (dstAddr op pl r c).toNat (dstBytes op) (outValue op pl (g c))) m := by
  induction n generalizing c m with
  | zero => rfl
  | succ n ih => simp only [List.range'_succ, List.map_cons, storeRow, List.foldl_cons, ih]

theorem storeRows_eq_foldl (op : ScaleOp) (pl : Planes) (w : RowWrites) (m : Memory) :
    storeRows op pl w m = w.foldl (fun m rd => storeRow op pl rd.1 0 rd.2 m) m := by
  induction w generalizing m with
  | nil => rfl
  | cons rd rest ih => exact ih _

/-- Storing a plane is one store per sample. -/
theorem storePlane_eq_foldl (op : ScaleOp) (pl : Planes) (f : Nat → Nat → Nat) (m : Memory) :
    storePlane op pl f m =
      (planeSamples pl).foldl
        (fun m p => storeSample m (dstAddr op pl p.1 p.2).toNat (dstBytes op) (outValue op pl (f p.1 p.2))) m := by
  rw [storePlane, storeRows_eq_foldl, planeSamples, List.product, List.foldl_flatMap, List.foldl_map]
  simp only [List.foldl_map, List.range_eq_range', storeRow_eq_foldl]

/-- The value OUT stores, its low bytes (R63, R160, R212). -/
theorem outValue_mod (op : ScaleOp) (pl : Planes) (v : Nat) :
    outValue op pl v % 256 ^ dstBytes op =
      (if op = .scale16to8 then min 255 (v * pl.scale.toNat / 65536) else v) % 256 ^ dstBytes op := by
  cases op <;> simp [outValue, narrow, Nat.shiftRight_eq_div_pow]

section
variable {op : ScaleOp} {pl : Planes} {m : Memory}
  (hspace : ∀ r c, r < dstHeight pl ∧ c < dstWidth pl →
    0 ≤ dstAddr op pl r c ∧ dstAddr op pl r c + dstBytes op ≤ 2 ^ 64)
include hspace

/-- A stored sample reads back (R62, R63, R66). -/
theorem dstSample_storePlane (f : Nat → Nat → Nat) (h : Memory.wf m = true)
    (hapart : ∀ r c r' c', r < dstHeight pl ∧ c < dstWidth pl → r' < dstHeight pl ∧ c' < dstWidth pl →
      (r, c) ≠ (r', c') →
      dstAddr op pl r c + dstBytes op ≤ dstAddr op pl r' c' ∨ dstAddr op pl r' c' + dstBytes op ≤ dstAddr op pl r c)
    {r c : Nat} (hin : r < dstHeight pl ∧ c < dstWidth pl) :
    dstSample op pl (storePlane op pl f m) r c = outValue op pl (f r c) % 256 ^ dstBytes op := by
  have haddr := hspace r c hin
  rw [dstSample, storePlane_eq_foldl]
  refine loadSample_foldl_storeSample (dstBytes_cases op) (fun p : Nat × Nat => (dstAddr op pl p.1 p.2).toNat)
    (fun p => outValue op pl (f p.1 p.2)) h (p := (r, c)) (mem_planeSamples.2 hin) (by dsimp only; omega) ?_
  rintro ⟨r', c'⟩ hq hne
  have hin' := mem_planeSamples.1 hq
  have haddr' := hspace r' c' hin'
  have := hapart r c r' c' hin hin' hne.symm
  dsimp only
  omega

/-- Storing a plane changes no byte outside the footprint. -/
theorem read_storePlane_other (f : Nat → Nat → Nat) {a : Nat} (ha : inSpans (dstSpans op pl) a = false) :
    Memory.read (storePlane op pl f m) a = Memory.read m a := by
  rw [storePlane_eq_foldl]
  refine read_foldl_storeSample_other (dstBytes_cases op) (fun p : Nat × Nat => (dstAddr op pl p.1 p.2).toNat) _ _ _ ?_
  rintro ⟨r, c⟩ hp
  have hin := mem_planeSamples.1 hp
  have haddr := hspace r c hin
  have := beside_of_not_inSpans ha hin.1 hin.2
  dsimp only
  omega

end

/-- Settles O24: each sample of the list of stores reads back, and its bytes are those of the value read. -/
theorem storedPlaneReadsBack : Obligations.StoredPlaneReadsBack := by
  unfold Obligations.StoredPlaneReadsBack
  intro op pl m f h
  simp only [← dstBytes_eq, ← outValue_mod]
  intro hspace hapart
  refine ⟨fun r c hin => ?_, fun a ha => read_storePlane_other (by exact_mod_cast hspace) f ha⟩
  have hv := dstSample_storePlane (by exact_mod_cast hspace) f h (by exact_mod_cast hapart) hin
  refine ⟨hv, fun a ha => ?_⟩
  rw [dstSample, ha, Int.toNat_natCast] at hv
  rw [← hv]
  refine ⟨read_of_loadSample (dstBytes_cases op) _ _, fun h2 => ?_⟩
  rw [h2]
  exact (read_of_loadSample_two _ _).2

end Sys2Proof.Proofs.StoredPlane

/-! PROOFS. The host's port to memory (R60, R61, R73): when a latched word is a scaling command, what each host access
does, and what a command leaves of a destination that the host has disturbed. -/

namespace Sys2Proof.Proofs.HostMemory

open Sys2Proof Sys2Proof.Machine Sys2Proof.Proofs.KernelAnswers Sys2Proof.Proofs.RegisterBlock
  Sys2Proof.Proofs.StateInvariant Sys2Proof.Proofs.Footprints

/-! ### Which latched words are scaling commands (R81, R84) -/

theorem latchedWord_toNat (c : Latched) :
    (latchedWord c).toNat = 2 ^ 31 + c.rsv.toNat * 2 ^ 6 + c.filter.toNat * 2 ^ 4 + c.op.toNat := by
  have packed : ∀ (r : BitVec 25) (f : BitVec 2) (o : BitVec 4),
      (1#1 ++ r ++ f ++ o).toNat = 2 ^ 31 + r.toNat * 2 ^ 6 + f.toNat * 2 ^ 4 + o.toNat := by
    intro r f o
    simp only [toNat_append_eq, BitVec.toNat_ofNat]
    omega
  exact packed _ _ _

theorem extractLsb'_eq_of_toNat {n : Nat} {w : BitVec n} {start len : Nat} {v : BitVec len}
    (h : w.toNat / 2 ^ start % 2 ^ len = v.toNat) : w.extractLsb' start len = v := by
  apply BitVec.eq_of_toNat_eq
  rw [BitVec.extractLsb'_toNat, Nat.shiftRight_eq_div_pow, h]

/-- The fields of the CMD word are what was latched of it (R42, R80). -/
theorem latchedWord_fields (c : Latched) :
    cmdStart (latchedWord c) = true ∧ cmdRsv (latchedWord c) = c.rsv ∧ cmdFilter (latchedWord c) = c.filter ∧
    cmdOp (latchedWord c) = c.op := by
  have hword := latchedWord_toNat c
  have hrsv := c.rsv.isLt
  have hfilter := c.filter.isLt
  have hop := c.op.isLt
  refine ⟨getLsbD_eq_of_extractLsb' (extractLsb'_eq_of_toNat ?_), extractLsb'_eq_of_toNat ?_,
    extractLsb'_eq_of_toNat ?_, extractLsb'_eq_of_toNat ?_⟩ <;> rw [hword]
  · change _ = 1
    omega
  all_goals omega

theorem decode_latchedWord (c : Latched) :
    decode (latchedWord c) =
      if c.rsv = 0#25 then .ok (decodeOp c.op (filterOfBits c.filter)) else .error .reservedBits := by
  obtain ⟨hstart, hrsv, hfilter, hop⟩ := latchedWord_fields c
  simp [decode, hstart, hrsv, hfilter, hop]

/-- The OP code of a scaling command (R81). -/
def opBits : ScaleOp → BitVec 4
  | .scale8 => 1#4
  | .scale16 => 2#4
  | .scale12 => 3#4
  | .scale16to8 => 4#4

theorem decodeOp_opBits (op : ScaleOp) (f : FilterMode) : decodeOp (opBits op) f = commandInstr op f := by
  cases op <;> rfl

/-- No other OP code decodes to the scaling command. -/
theorem eq_opBits_of_decodeOp {o : BitVec 4} {f f' : FilterMode} {op : ScaleOp}
    (h : decodeOp o f = commandInstr op f') : o = opBits op := by
  refine BitVec.eq_of_toNat_eq ?_
  unfold decodeOp at h
  split at h <;> cases op <;> cases h <;> assumption

theorem latchedScaleOp_eq_some_iff (c : Latched) (op : ScaleOp) :
    latchedScaleOp c = some op ↔ c.rsv = 0#25 ∧ c.op = opBits op := by
  unfold latchedScaleOp
  split_ifs <;> cases op <;> simp_all [opBits]

/-- A latched command is a scaling command exactly when its word decodes to one. -/
theorem latchedScaleOp_iff_decode (c : Latched) (op : ScaleOp) :
    latchedScaleOp c = some op ↔ ∃ f, decode (latchedWord c) = .ok (commandInstr op f) := by
  rw [latchedScaleOp_eq_some_iff, decode_latchedWord]
  constructor
  · rintro ⟨hrsv, hop⟩
    exact ⟨filterOfBits c.filter, by rw [if_pos hrsv, hop, decodeOp_opBits]⟩
  · rintro ⟨f, hdec⟩
    split at hdec
    · exact ⟨‹_›, eq_opBits_of_decodeOp (Except.ok.inj hdec)⟩
    · cases hdec

/-! ### MEM_VALID and the footprints of the running command -/

theorem memValid_iff (cfg : Config) (a : Nat) :
    memValid cfg a = true ↔ a < 2 ^ 64 ∧ ∀ h, h ∈ cfg.holes → ¬ (h.1 ≤ a ∧ a < h.2) := by
  simp [memValid]

/-- No scaling command is running. -/
def NoScaling (s : State) : Prop := ∀ c d, s.phase = .busy c d → latchedScaleOp c = none

theorem noScaling_of_forall {s : State}
    (h : ∀ op pl d, ¬ ∃ c, s.phase = .busy c d ∧ latchedScaleOp c = some op ∧ c.planes = pl) : NoScaling s :=
  fun c d hphase => Option.eq_none_iff_forall_ne_some.2 fun op hop => h op c.planes d ⟨c, hphase, hop, rfl⟩

section
variable {s : State} (a : Nat)

theorem inBusyDst_noScaling (h : NoScaling s) : inBusyDst s a = false := by
  rcases hp : s.phase with _ | ⟨c, d⟩
  · simp [inBusyDst, hp]
  · simp [inBusyDst, hp, h c d hp]

theorem inBusyFootprint_noScaling (h : NoScaling s) : inBusyFootprint s a = false := by
  rcases hp : s.phase with _ | ⟨c, d⟩
  · simp [inBusyFootprint, hp]
  · simp [inBusyFootprint, hp, h c d hp]

variable {c : Latched} {d : Bool} {op : ScaleOp}

theorem inBusyDst_scaling (h : s.phase = .busy c d) (hop : latchedScaleOp c = some op) :
    inBusyDst s a = inSpans (dstSpans op c.planes) a := by
  simp [inBusyDst, h, hop]

theorem inBusyFootprint_scaling (h : s.phase = .busy c d) (hop : latchedScaleOp c = some op) :
    inBusyFootprint s a = (inSpans (srcSpans op c.planes) a || inSpans (dstSpans op c.planes) a) := by
  simp [inBusyFootprint, h, hop]

end

/-! ### What a host access does -/

section
variable {s : State} {addr : BitVec 64}

theorem hostMemRead_invalid (h : memValid s.cfg addr.toNat = false) : hostMemRead addr s = .fault .hostNoMemory :=
  if_pos h

theorem hostMemRead_plain (h : memValid s.cfg addr.toNat = true) (hdst : inBusyDst s addr.toNat = false) :
    hostMemRead addr s = .next { s with memData := Memory.read s.mem addr.toNat } := by
  simp [hostMemRead, h, hdst]

theorem hostMemRead_free (h : memValid s.cfg addr.toNat = true) (hdst : inBusyDst s addr.toNat = true) :
    hostMemRead addr s = .next { s with memData := Config.freeRead s.free, free := s.free + 1 } := by
  simp [hostMemRead, h, hdst]

variable (v : Byte)

theorem hostMemWrite_invalid (h : memValid s.cfg addr.toNat = false) :
    hostMemWrite addr v s = .fault .hostNoMemory := if_pos h

theorem hostMemWrite_plain (h : memValid s.cfg addr.toNat = true) (hfoot : inBusyFootprint s addr.toNat = false) :
    hostMemWrite addr v s = .next { s with mem := Memory.write s.mem addr.toNat v } := by
  simp [hostMemWrite, h, hfoot]

theorem hostMemWrite_disturbs (h : memValid s.cfg addr.toNat = true) (hfoot : inBusyFootprint s addr.toNat = true)
    {c : Latched} {d : Bool} (hphase : s.phase = .busy c d) :
    hostMemWrite addr v s = .next { s with mem := Memory.write s.mem addr.toNat v, phase := .busy c true } := by
  simp [hostMemWrite, h, hfoot, disturb, hphase]

end

/-! ### A command stays inside its destination footprint (R61, R68) -/

theorem dstAddr_nonneg {op : ScaleOp} {pl : Planes} (h : spansInSpace (dstSpans op pl) = true) {r : Nat}
    (hr : r < dstHeight pl) (c : Nat) : 0 ≤ dstAddr op pl r c := by
  simp only [spansInSpace, dstSpans, List.all_map, List.all_eq_true, List.mem_range, Function.comp_apply,
    Bool.and_eq_true, decide_eq_true_eq] at h
  have hstart := (h r hr).1
  rw [dstAddr_col]
  positivity

theorem spansInSpace_of_runs {cfg : Config} {op : ScaleOp} {pl : Planes} {path : PathCode}
    (h : postCheck cfg op pl path = .runs) : spansInSpace (dstSpans op pl) = true := by
  unfold postCheck at h
  split_ifs at h with _ _ hspace
  simp only [not_or, Bool.not_eq_false] at hspace
  exact hspace.2

theorem writesInside_of_pathWrites {path : PathCode} {jb : PathJob} {st : ScaleStep} {w : RowWrites}
    (h : pathWrites path jb st = .ok w) : writesInside jb.planes w = true := by
  unfold pathWrites at h
  rcases hrows : pathRows path jb st with e | w'
  · rw [hrows] at h
    cases h
  · rw [hrows] at h
    simp only [bind, Except.bind] at h
    split_ifs at h with hin
    cases h
    exact hin

/-- Rows inside the plane touch no byte outside the footprint. -/
theorem read_storeRows_outside {op : ScaleOp} {pl : Planes} {w : RowWrites} (hw : writesInside pl w = true)
    (hspace : spansInSpace (dstSpans op pl) = true) (m : Memory) {a : Nat}
    (ha : inSpans (dstSpans op pl) a = false) : Memory.read (storeRows op pl w m) a = Memory.read m a := by
  simp only [writesInside, List.all_eq_true, Bool.and_eq_true, decide_eq_true_eq] at hw
  refine read_storeRows_other op pl w m fun rd hrd k hk => ?_
  obtain ⟨hrow, hlen⟩ := hw rd hrd
  have hnonneg := dstAddr_nonneg hspace hrow k
  have hbeside := beside_of_not_inSpans ha hrow (show k < dstWidth pl by omega)
  omega

theorem read_runPath_outside (path : PathCode) (op : ScaleOp) (pl : Planes) (m : FilterMode) (s : State) {a : Nat}
    (ha : inSpans (dstSpans op pl) a = false) :
    Memory.read (runPath path op pl m s).1.mem a = Memory.read s.mem a := by
  rcases runPath_cases path op pl m s with ⟨e, _, hr⟩ | ⟨_, hr⟩ | ⟨w, hruns, hw, hr⟩ | ⟨e, _, _, hr⟩ <;> rw [hr]
  · rfl
  · rfl
  · exact read_storeRows_outside (writesInside_of_pathWrites hw) (spansInSpace_of_runs hruns) s.mem ha
  · exact read_scrambleDst_other op pl _ ha

theorem runPath_phase (path : PathCode) (op : ScaleOp) (pl : Planes) (m : FilterMode) (s : State) :
    (runPath path op pl m s).1.phase = s.phase := by
  rcases runPath_cases path op pl m s with ⟨e, _, hr⟩ | ⟨_, hr⟩ | ⟨w, _, _, hr⟩ | ⟨e, _, _, hr⟩ <;> rw [hr] <;> rfl

/-! ### A disturbed command -/

/-- From `m` to `m'`, the destination footprint has become unspecified and no other byte has changed (R73). -/
def DstUnspecified (op : ScaleOp) (pl : Planes) (cfg : Config) (m m' : Memory) : Prop :=
  ∃ k, ∀ a : Nat,
    (inSpans (dstSpans op pl) a = false → Memory.read m' a = Memory.read m a) ∧
    (inSpans (dstSpans op pl) a = true → memValid cfg a = true → Memory.read m' a = Config.freeByte k a)

section
variable {s : State} {c : Latched} {op : ScaleOp} (hop : latchedScaleOp c = some op)
  (hphase : s.phase = .busy c true) (hwf : Memory.wf s.mem = true)
include hop hphase hwf

/-- The end of a disturbed command makes its destination unspecified, whatever the command did inside it. -/
theorem dstUnspecified_endCommand (e : Option Err) {m : Memory}
    (hm : ∀ a : Nat, inSpans (dstSpans op c.planes) a = false → Memory.read s.mem a = Memory.read m a) :
    DstUnspecified op c.planes s.cfg m (endCommand e s).mem := by
  rw [endCommand_mem_disturbed e s c hphase, scrambleLatched_some hop]
  exact ⟨s.free, fun a => ⟨fun hout => (read_scrambleDst_other op c.planes s hout).trans (hm a hout),
    read_scrambleDst_mem op c.planes hwf⟩⟩

theorem dstUnspecified_runCommand (f : FilterMode) :
    DstUnspecified op c.planes s.cfg s.mem (runCommand op f s).mem := by
  have hplanes := commandPlanes_busy hphase
  rcases runCommand_cases op f s with ⟨e, -, hr⟩ | ⟨-, hr⟩ <;> rw [hr]
  · exact dstUnspecified_endCommand (s := clearStatus s) hop hphase hwf (some e) fun _ _ => rfl
  · rw [hplanes]
    have hside := sameHostSide_runPath (dispatch op c.planes f).path op c.planes (dispatch op c.planes f).mode
      (setEffFilter (dispatch op c.planes f).mode (clearStatus s))
    have hcfg := hside.cfg
    rw [setEffFilter_cfg, clearStatus_cfg] at hcfg
    rw [← hcfg]
    refine dstUnspecified_endCommand hop ?_ ?_ _ ?_
    · exact (runPath_phase ..).trans hphase
    · exact wf_runPath _ _ _ _ _ hwf
    · exact fun a => read_runPath_outside _ _ _ _ _

end

theorem exec_commandInstr (op : ScaleOp) (f : FilterMode) (s : State) :
    exec (commandInstr op f) s = .next (runCommand op f s) := by
  cases op <;> rfl

/-- The engine step of a latched scaling command runs it (R266). -/
theorem engineStep_scaling {c : Latched} {op : ScaleOp} (hop : latchedScaleOp c = some op) (s : State) :
    ∃ f, engineStep c s = .next (runCommand op f s) := by
  obtain ⟨f, hdec⟩ := (latchedScaleOp_iff_decode c op).1 hop
  exact ⟨f, by rw [engineStep, hdec]; exact exec_commandInstr op f s⟩

/-- The engine's turn on a disturbed scaling command leaves its destination unspecified (R73). -/
theorem step_disturbed {s u : State} {c : Latched} {op : ScaleOp} (hphase : s.phase = .busy c true)
    (hturn : engineTurn s u) (hop : latchedScaleOp c = some op) (hwf : Memory.wf s.mem = true) :
    ∃ t, step s = .next t ∧ DstUnspecified op c.planes s.cfg s.mem t.mem := by
  obtain ⟨f, hrun⟩ := engineStep_scaling hop u
  refine ⟨_, (step_busy hphase hturn).trans hrun, ?_⟩
  rcases hturn with ⟨-, rfl⟩ | ⟨rest, -, rfl⟩
  · exact dstUnspecified_runCommand hop hphase hwf f
  · exact dstUnspecified_runCommand (s := { s with pending := rest }) hop hphase hwf f

/-! ### The obligation -/

/-- Settles O11, access by access: the running command, if it is a scaling command, decides what each access does. -/
theorem hostMemoryAccesses : Obligations.HostMemoryAccesses := by
  unfold Obligations.HostMemoryAccesses
  refine ⟨latchedScaleOp_iff_decode, memValid_iff, fun s a v => ?_, fun s u c op hphase hturn hop hwf => ?_⟩
  · dsimp only
    refine ⟨fun hinvalid => ⟨hostMemRead_invalid hinvalid, hostMemWrite_invalid v hinvalid⟩, fun hvalid => ⟨?_, ?_⟩,
      fun hvalid hwf => ⟨Memory.write s.mem a.toNat v, read_write_same hwf a.isLt v,
        fun b hb => read_write_other s.mem v hb, ?_, ?_⟩⟩
    · intro hno
      exact hostMemRead_plain hvalid (inBusyDst_noScaling _ (noScaling_of_forall hno))
    · rintro op pl d ⟨c, hp, hop, rfl⟩
      have hdst := inBusyDst_scaling a.toNat hp hop
      exact ⟨fun hout => hostMemRead_plain hvalid (hdst.trans hout),
        fun hin => hostMemRead_free hvalid (hdst.trans hin)⟩
    · intro hno
      exact hostMemWrite_plain v hvalid (inBusyFootprint_noScaling _ (noScaling_of_forall hno))
    · intro op c d hp hop
      have hfoot := inBusyFootprint_scaling a.toNat hp hop
      refine ⟨fun hsrc hdst => hostMemWrite_plain v hvalid (by rw [hfoot, hsrc, hdst]; rfl),
        fun hin => hostMemWrite_disturbs v hvalid (hfoot.trans (by simpa using hin)) hp⟩
  · obtain ⟨t, hstep, k, hk⟩ := step_disturbed hphase hturn hop hwf
    exact ⟨t, k, hstep, hk⟩

end Sys2Proof.Proofs.HostMemory

/-! PROOFS. The CMD word (R80 to R89): a word is the encoding of an instruction exactly when it decodes to it, and what is no
instruction ends its command with ERR_CMD (R268, R301). -/

namespace Sys2Proof.Proofs.CommandWords

open Sys2Proof Sys2Proof.Machine Sys2Proof.Proofs.RegisterBlock Sys2Proof.Proofs.HostMemory

/-! ### FILTER and OP (R81, R82) -/

@[simp] theorem filterOfBits_filterBits (f : FilterMode) : filterOfBits (filterBits f) = f := by cases f <;> rfl

@[simp] theorem filterBits_filterOfBits (b : BitVec 2) : filterBits (filterOfBits b) = b := by revert b; decide

theorem decodeOp_illegalOp67 (f : FilterMode) (o : BitVec 1) : decodeOp (3#3 ++ o) f = .illegalOp67 f o := by
  cases f <;> (revert o; decide)

theorem decodeOp_illegalOp8F (f : FilterMode) (o : BitVec 3) : decodeOp (1#1 ++ o) f = .illegalOp8F f o := by
  cases f <;> (revert o; decide)

/-- Every OP code is that of the instruction it decodes to. -/
theorem encode_decodeOp (o : BitVec 4) (f : FilterMode) : encode (decodeOp o f) = some (commandWord o f) := by
  cases f <;> (revert o; decide)

/-! ### The word of an OP code and a filter (R80) -/

theorem decode_commandWord (o : BitVec 4) (f : FilterMode) : decode (commandWord o f) = .ok (decodeOp o f) := by
  have h := decode_latchedWord { op := o, filter := filterBits f, rsv := 0#25, planes := registerPlanes State.reset }
  rwa [if_pos rfl, filterOfBits_filterBits] at h

/-- A word with START = 1 and RSV = 0 is that of its OP and FILTER. -/
theorem commandWord_fields {w : Word} (hstart : cmdStart w = true) (hrsv : cmdRsv w = 0#25) :
    commandWord (cmdOp w) (filterOfBits (cmdFilter w)) = w := by
  have hword : 1#1 ++ cmdRsv w ++ cmdFilter w ++ cmdOp w = w := latchedWord_latch hstart State.reset
  rw [commandWord, filterBits_filterOfBits, ← hrsv]
  exact hword

theorem encode_eq_some_commandWord {i : Instr} {w : Word} (h : encode i = some w) :
    ∃ o f, w = commandWord o f ∧ decodeOp o f = i := by
  cases i <;> cases h
  case illegalOp67 f o => exact ⟨_, f, rfl, decodeOp_illegalOp67 f o⟩
  case illegalOp8F f o => exact ⟨_, f, rfl, decodeOp_illegalOp8F f o⟩
  all_goals exact ⟨_, _, rfl, rfl⟩

/-! ### Decoding (R84) -/

theorem decode_eq_startClear_iff (w : Word) : decode w = .error .startClear ↔ cmdStart w = false := by
  unfold decode
  split_ifs <;> simp_all

theorem decode_eq_reservedBits_iff (w : Word) :
    decode w = .error .reservedBits ↔ cmdStart w = true ∧ cmdRsv w ≠ 0#25 := by
  unfold decode
  split_ifs <;> simp_all

theorem decode_eq_ok_iff (w : Word) (i : Instr) :
    decode w = .ok i ↔
      cmdStart w = true ∧ cmdRsv w = 0#25 ∧ decodeOp (cmdOp w) (filterOfBits (cmdFilter w)) = i := by
  unfold decode
  split_ifs <;> simp_all

/-- The encoder and the decoder are each other's inverse: an instruction's word is the one word that decodes to it. -/
theorem encode_eq_some_iff (i : Instr) (w : Word) : encode i = some w ↔ decode w = .ok i := by
  constructor
  · intro h
    obtain ⟨o, f, rfl, rfl⟩ := encode_eq_some_commandWord h
    exact decode_commandWord o f
  · intro h
    obtain ⟨hstart, hrsv, rfl⟩ := (decode_eq_ok_iff w i).1 h
    rw [encode_decodeOp, commandWord_fields hstart hrsv]

/-! ### The obligations on words -/

/-- Only the host commands have a word (R88). -/
theorem isSome_encode (i : Instr) : (encode i).isSome = isCommand i := by cases i <;> rfl

/-- Settles O1: an instruction with a word is what the word decodes to, and one without is decoded from no word. -/
theorem decodeEncodeAgree : Obligations.DecodeEncodeAgree := by
  unfold Obligations.DecodeEncodeAgree
  refine ⟨fun i => ?_, fun i _ => ?_⟩
  · rw [← isSome_encode, Option.isSome_eq_false_iff, Option.isNone_iff_eq_none]
  · rcases h : encode i with _ | w
    · refine .inr ⟨rfl, fun w hdec => ?_⟩
      rw [(encode_eq_some_iff i w).2 hdec] at h
      cases h
    · exact .inl ⟨w, rfl, (encode_eq_some_iff i w).1 h⟩

/-- Settles O2, by the three answers of the decoder. -/
theorem encodeDecodeAgree : Obligations.EncodeDecodeAgree := by
  unfold Obligations.EncodeDecodeAgree
  intro w
  refine ⟨decode_eq_startClear_iff w, decode_eq_reservedBits_iff w, fun hstart hrsv => ?_⟩
  have hdec := (decode_eq_ok_iff w _).2 ⟨hstart, hrsv, rfl⟩
  exact ⟨_, hdec, (encode_eq_some_iff _ w).2 hdec⟩

/-- Settles O3: each word is that of an OP code and a filter, and the STATUS field is that of O8. -/
theorem specWordsDecode : Obligations.SpecWordsDecode := by
  unfold Obligations.SpecWordsDecode
  refine ⟨rfl, fun f => ?_, fun s => ?_, by decide⟩
  · have word := fun o => decode_commandWord o f
    exact ⟨word 0#4, word 1#4, word 2#4, word 3#4, word 4#4, word 5#4,
      fun o => (word _).trans (congrArg _ (decodeOp_illegalOp67 f o)),
      fun o => (word _).trans (congrArg _ (decodeOp_illegalOp8F f o))⟩
  · obtain ⟨fields, -⟩ := statusWordFields
    obtain ⟨-, -, -, -, -, -, -, heff, -⟩ := fields s
    exact heff

end Sys2Proof.Proofs.CommandWords

/-! PROOFS. ERR_CMD (R84, R268, R301): the commands that end with it, and that no other command does. -/

namespace Sys2Proof.Proofs.ReservedCommands

open Sys2Proof Sys2Proof.Machine Sys2Proof.Proofs.PathErrors Sys2Proof.Proofs.StateInvariant
  Sys2Proof.Proofs.HostMemory

/-! ### Commands that end at once (R34, R38) -/

theorem undisturbed_busy {s : State} {c : Latched} (h : s.phase = .busy c false) : undisturbed s = true := by
  simp [undisturbed, h]

/-- Without a disturbed footprint, a command that ends before dispatch touches no memory and no register but STATUS and
STEP_*. -/
theorem endCommand_clearStatus {s : State} (h : undisturbed s = true) (e : Option Err) :
    endCommand e (clearStatus s) = ended e none .none s := by
  unfold endCommand
  split
  next c hphase =>
    rw [clearStatus_phase] at hphase
    simp [undisturbed, hphase] at h
  next => rfl

theorem raiseBeforeDispatch_undisturbed {s : State} (h : undisturbed s = true) (e : Err) :
    raiseBeforeDispatch e s = ended (some e) none .none s := endCommand_clearStatus h (some e)

/-! ### The commands by their OP code (R81, R84) -/

/-- The OP codes 0x5 to 0xF are reserved (R84, R268). -/
theorem exec_decodeOp_reserved {o : BitVec 4} (h : 5 ≤ o.toNat) (f : FilterMode) (s : State) :
    exec (decodeOp o f) s = .next (raiseBeforeDispatch .cmd s) := by
  unfold decodeOp
  split
  case h_1 | h_2 | h_3 | h_4 | h_5 => omega
  all_goals rfl

theorem decodeOp_legal {o : BitVec 4} (h : o.toNat < 5) (f : FilterMode) :
    decodeOp o f = .nop f ∨ ∃ op, decodeOp o f = commandInstr op f := by
  unfold decodeOp
  interval_cases o.toNat
  · exact .inl rfl
  · exact .inr ⟨.scale8, rfl⟩
  · exact .inr ⟨.scale16, rfl⟩
  · exact .inr ⟨.scale12, rfl⟩
  · exact .inr ⟨.scale16to8, rfl⟩

theorem engineStep_reserved {c : Latched} (h : c.rsv ≠ 0#25 ∨ 5 ≤ c.op.toNat) (s : State) :
    engineStep c s = .next (raiseBeforeDispatch .cmd s) := by
  by_cases hrsv : c.rsv = 0#25
  · rw [engineStep, decode_latchedWord, if_pos hrsv]
    exact exec_decodeOp_reserved (h.resolve_left (not_not_intro hrsv)) _ s
  · rw [engineStep, decode_latchedWord, if_neg hrsv]
    rfl

/-! ### No other command ends with ERR_CMD -/

theorem preCheck_ne_cmd (cfg : Config) (op : ScaleOp) (pl : Planes) : preCheck cfg op pl ≠ some .cmd := by
  unfold preCheck
  split_ifs <;> nofun

/-- A path reports only errors that fit it, and ERR_CMD fits none (R311). -/
theorem not_fitsPath_cmd (path : PathCode) : ¬ FitsPath path .cmd := by simp [FitsPath, errFitsPath]

theorem runPath_ne_cmd (path : PathCode) (op : ScaleOp) (pl : Planes) (m : FilterMode) (s : State) :
    (runPath path op pl m s).2 ≠ some .cmd := by
  rcases runPath_cases path op pl m s with ⟨e, hpost, hr⟩ | ⟨-, hr⟩ | ⟨w, -, -, hr⟩ | ⟨e, -, hwrites, hr⟩ <;> rw [hr]
  · rintro ⟨⟩
    exact not_fitsPath_cmd path (postCheck_fails_fits hpost)
  · nofun
  · nofun
  · rintro ⟨⟩
    exact not_fitsPath_cmd path (pathWrites_error_fits hwrites)

theorem runCommand_err_ne_cmd (op : ScaleOp) (f : FilterMode) (s : State) : (runCommand op f s).err ≠ some .cmd := by
  rcases runCommand_cases op f s with ⟨e, hpre, hr⟩ | ⟨-, hr⟩ <;> rw [hr]
  · rintro ⟨⟩
    exact preCheck_ne_cmd _ _ _ hpre
  · exact runPath_ne_cmd _ _ _ _ _

/-- A latched word that is a command ends without ERR_CMD (R301). -/
theorem engineStep_legal {c : Latched} (hrsv : c.rsv = 0#25) (hop : c.op.toNat < 5) (s : State) :
    ∃ t, engineStep c s = .next t ∧ t.err ≠ some .cmd := by
  rw [engineStep, decode_latchedWord, if_pos hrsv]
  dsimp only
  rcases decodeOp_legal hop (filterOfBits c.filter) with h | ⟨op, h⟩ <;> rw [h]
  · exact ⟨_, rfl, nofun⟩
  · exact ⟨_, exec_commandInstr op _ s, runCommand_err_ne_cmd op _ s⟩

/-! ### The obligation -/

/-- Settles O17, by whether the latched word is a command. -/
theorem reservedCommandsRaiseErrCmd : Obligations.ReservedCommandsRaiseErrCmd := by
  unfold Obligations.ReservedCommandsRaiseErrCmd
  refine ⟨fun s f o1 o3 hund => ?_, fun s u c hphase hturn => ?_⟩
  · rw [← raiseBeforeDispatch_undisturbed hund]
    exact ⟨rfl, rfl, rfl⟩
  · have hund : undisturbed u = true := by
      rcases hturn with ⟨-, rfl⟩ | ⟨rest, -, rfl⟩ <;> exact undisturbed_busy hphase
    rw [step_busy hphase hturn, ← raiseBeforeDispatch_undisturbed hund]
    exact ⟨fun h => engineStep_reserved h u, fun hrsv hop => engineStep_legal hrsv hop u⟩

end Sys2Proof.Proofs.ReservedCommands

/-! PROOFS. The fixed-point stepper (R100 to R113): the divisions on their operand domains, the step of each mode, and the
coordinates that a step walks. -/

namespace Sys2Proof.Proofs.FixedPoint

open Sys2Proof Sys2Proof.Machine

/-! ### Truncation to 32 bits (R12) -/

theorem int32_of_fits {v : Int} (hlo : -2147483648 ≤ v) (hhi : v < 2147483648) : int32 v = v := by
  unfold int32; omega

theorem int32_natCast {n : Nat} (h : n < 2 ^ 31) : int32 n = n := int32_of_fits (by omega) (by omega)

theorem int32_le {v : Int} (h : -2147483648 ≤ v) : int32 v ≤ v := by
  unfold int32; omega

/-! ### FixedDiv (R100, R104) -/

/-- On the operand domain of R100 the truncating division is floor division. -/
theorem fixedDiv_eq {num den : Int} (hn : 0 ≤ num) (hd : 1 ≤ den) : fixedDiv num den = int32 (num * 65536 / den) := by
  rw [fixedDiv_of_domain hn hd, Int.tdiv_eq_ediv_of_nonneg (by omega)]
  rfl

theorem fixedDiv_natCast {num den : Nat} (hd : 1 ≤ den) :
    fixedDiv num den = int32 ((num * 65536 / den : Nat) : Int) := by
  rw [fixedDiv_eq (Int.natCast_nonneg num) (by exact_mod_cast hd)]
  norm_cast

/-- Only a divisor of 1 leaves a quotient of 2^31, and only the largest dimension reaches it (R104). -/
theorem quotient_eq_overflow_iff {num den : Nat} (hn : num ≤ 32768) (hd : 1 ≤ den) :
    num * 65536 / den = 2 ^ 31 ↔ num = 32768 ∧ den = 1 := by
  constructor
  · intro h
    have hmul : den * 2 ^ 31 ≤ num * 65536 := h ▸ Nat.mul_div_le (num * 65536) den
    omega
  · rintro ⟨rfl, rfl⟩
    rfl

theorem quotient_le_overflow {num : Nat} (hn : num ≤ 32768) (den : Nat) : num * 65536 / den ≤ 2 ^ 31 := by
  have := Nat.div_le_self (num * 65536) den
  omega

/-- FixedDiv of legal dimensions, but for the overflow, is the true quotient (R104). -/
theorem fixedDiv_exact {num den : Nat} (hn : num ≤ 32768) (hd : 1 ≤ den) (hov : ¬ (num = 32768 ∧ den = 1)) :
    fixedDiv num den = (num * 65536 / den : Nat) := by
  have hne := mt (quotient_eq_overflow_iff hn hd).1 hov
  have hle := quotient_le_overflow hn den
  rw [fixedDiv_natCast hd, int32_natCast (by omega)]

/-! ### FixedDiv1 (R102, R103) -/

theorem fixedDiv1_eq {num den : Int} (hn : 2 ≤ num) (hd : 2 ≤ den) :
    fixedDiv1 num den = int32 ((num * 65536 - 65537) / (den - 1)) := by
  rw [fixedDiv1_of_domain (by omega) hd, Int.tdiv_eq_ediv_of_nonneg (by omega)]
  rfl

theorem fixedDiv1_natCast {num den : Nat} (hn : 2 ≤ num) (hd : 2 ≤ den) :
    fixedDiv1 num den = int32 (((num * 65536 - 65537) / (den - 1) : Nat) : Int) := by
  rw [fixedDiv1_eq (by omega) (by omega), Int.natCast_ediv, Nat.cast_sub (by omega), Nat.cast_sub (by omega)]
  norm_cast

/-- A numerator of 1 leaves the dividend -1, truncated toward zero (R102). -/
theorem fixedDiv1_one {den : Int} (hd : 2 ≤ den) : fixedDiv1 1 den = if den = 2 then -1 else 0 := by
  rw [fixedDiv1_of_domain le_rfl hd]
  split_ifs with h
  · subst h
    rfl
  · have hzero : ((1 : Int) * 2 ^ 16 - 0x00010001).tdiv (den - 1) = 0 := by
      change (-(1 : Int)).tdiv (den - 1) = 0
      rw [Int.neg_tdiv, Int.tdiv_eq_zero_of_lt (by omega) (by omega), Int.neg_zero]
    rw [hzero]
    rfl

/-- The endpoint property of R103: wrapping only lowers the quotient. -/
theorem endpoint_fixedDiv1_le {num den : Int} (hn : 2 ≤ num) (hd : 2 ≤ den) :
    (den - 1) * fixedDiv1 num den ≤ (num - 1) * 65536 - 1 := by
  have hq : 0 ≤ (num * 65536 - 65537) / (den - 1) := Int.ediv_nonneg (by omega) (by omega)
  calc (den - 1) * fixedDiv1 num den
      ≤ (den - 1) * ((num * 65536 - 65537) / (den - 1)) := by
        rw [fixedDiv1_eq hn hd]
        exact Int.mul_le_mul_of_nonneg_left (int32_le (by omega)) (by omega)
    _ ≤ num * 65536 - 65537 := Int.mul_ediv_self_le (by omega)
    _ = (num - 1) * 65536 - 1 := by ring

/-- The step of an upscale is the true quotient, a fraction below one sample (R104). -/
theorem fixedDiv1_upscale {num den : Int} (hn : 2 ≤ num) (hd : num < den) :
    fixedDiv1 num den = (num * 65536 - 65537) / (den - 1) ∧ 0 ≤ fixedDiv1 num den ∧ fixedDiv1 num den < 65536 := by
  have hlo : 0 ≤ (num * 65536 - 65537) / (den - 1) := Int.ediv_nonneg (by omega) (by omega)
  have hhi : (num * 65536 - 65537) / (den - 1) < 65536 := Int.ediv_lt_of_lt_mul (by omega) (by omega)
  have heq : fixedDiv1 num den = (num * 65536 - 65537) / (den - 1) := by
    rw [fixedDiv1_eq hn (by omega), int32_of_fits (by omega) (by omega)]
  exact ⟨heq, heq ▸ hlo, heq ▸ hhi⟩

/-- The last destination sample of an upscale keeps a fraction: the remainder of the division is below den - 1, and the
dividend is one short of a whole coordinate (R103). -/
theorem endpoint_fraction_pos {num den : Int} (hn : 2 ≤ num) (hd : num < den) (hden : den ≤ 32768) :
    0 < (den - 1) * fixedDiv1 num den % 65536 := by
  obtain ⟨heq, -, -⟩ := fixedDiv1_upscale hn hd
  have hdiv := Int.mul_ediv_add_emod (num * 65536 - 65537) (den - 1)
  have hlo := Int.emod_nonneg (num * 65536 - 65537) (show den - 1 ≠ 0 by omega)
  have hhi := Int.emod_lt_of_pos (num * 65536 - 65537) (show 0 < den - 1 by omega)
  rw [heq]
  omega

/-! ### CENTERSTART (R105) -/

theorem centerStart_eq (d off : Int) :
    centerStart d off = if 0 ≤ d then d / 2 + off else -((-d) / 2 + off) := by
  rw [centerStart, Int.shiftRight_eq_div_pow, Int.shiftRight_eq_div_pow]
  rfl

theorem centerStart_of_nonneg {d : Int} (h : 0 ≤ d) (off : Int) : centerStart d off = d / 2 + off := by
  rw [centerStart_eq, if_pos h]

theorem centerStart_of_neg {d : Int} (h : d < 0) (off : Int) : centerStart d off = -((-d) / 2 + off) := by
  rw [centerStart_eq, if_neg (by omega)]

/-! ### FX.DIV, FX.DIV1 and FX.CENTER -/

section

variable (num den : Nat) (s : State)

theorem exec_fxDiv : exec (.fxDiv num den) s =
    if den = 0 then .refused .fixedDivByZero else .next { s with result := .number (fixedDiv num den) } := rfl

theorem exec_fxDiv1 : exec (.fxDiv1 num den) s =
    if den ≤ 1 then .refused .fixedDiv1Guard else .next { s with result := .number (fixedDiv1 num den) } := rfl

theorem exec_fxCenter (d off : Int) :
    exec (.fxCenter d off) s = .next { s with result := .number (centerStart d off) } := rfl

end

/-- Settles O41, from what each division answers on its operand domain. -/
theorem fixedPointHelpers : Obligations.FixedPointHelpers := by
  unfold Obligations.FixedPointHelpers
  intro num den d off s
  refine ⟨fun hd => ?_, fun hd => ?_, fun hn hd => ?_, fun hd => ?_, fun hd => ?_, fun h => ?_, fun h => ?_⟩
  · rw [exec_fxDiv, if_neg (by omega), fixedDiv_natCast hd]
    rfl
  · rw [exec_fxDiv, if_pos hd]
  · rw [exec_fxDiv1, if_neg (by omega), fixedDiv1_natCast hn hd]
    rfl
  · rw [exec_fxDiv1, if_neg (by omega), Nat.cast_one, fixedDiv1_one (by omega)]
    norm_cast
  · rw [exec_fxDiv1, if_pos hd]
  · rw [exec_fxCenter, centerStart_of_nonneg h]
  · rw [exec_fxCenter, centerStart_of_neg h]

/-- Settles O42: the quotient of legal dimensions against 2^31, and the endpoint property. -/
theorem fixedDivEndpoints : Obligations.FixedDivEndpoints := by
  unfold Obligations.FixedDivEndpoints
  refine ⟨fun num den _ hn hd _ => ?_, fun num den hn hd => ?_, fun num den hn hlt hd => ?_⟩
  · exact ⟨quotient_le_overflow hn den, quotient_eq_overflow_iff hn hd, fixedDiv_exact hn hd, rfl⟩
  · have h := endpoint_fixedDiv1_le (num := num) (den := den) (by omega) (by omega)
    exact ⟨h, by omega⟩
  · obtain ⟨-, hlo, hhi⟩ := fixedDiv1_upscale (num := num) (den := den) (by omega) (by omega)
    exact ⟨hlo, hhi, endpoint_fraction_pos (by omega) (by omega) (by omega)⟩

/-! ### FX.SLOPE (R106 to R109, R113) -/

theorem slopeDividesByZero_iff (srcH dstW dstH : Int) (m : FilterMode) :
    slopeDividesByZero srcH dstW dstH m = true ↔ dstW = 0 ∨ (dstH = 0 ∧ (m ≠ .bilinear ∨ 0 ≤ srcH)) := by
  simp [slopeDividesByZero]

theorem exec_fxSlope (srcW srcH dstW dstH : Int) (m : FilterMode) (s : State) : exec (.fxSlope srcW srcH dstW dstH m) s =
    if slopeDividesByZero srcH dstW dstH m then .refused .fixedDivByZero
    else .next { s with result := .step (scaleSlope srcW srcH dstW dstH m) } := rfl

/-- A nonempty destination has no divisor of 0. -/
theorem exec_fxSlope_of_dst_pos {dstW dstH : Int} (hw : 1 ≤ dstW) (hh : 1 ≤ dstH) (srcW srcH : Int) (m : FilterMode)
    (s : State) : exec (.fxSlope srcW srcH dstW dstH m) s =
      .next { s with result := .step (scaleSlope srcW srcH dstW dstH m) } := by
  rw [exec_fxSlope, if_neg]
  rw [slopeDividesByZero_iff]
  omega

theorem scaleSlope_of_pos {w : Int} (hw : 1 ≤ w) (h dstW dstH : Int) (m : FilterMode) :
    scaleSlope w h dstW dstH m = modeSlope w h (edgeCase w dstW) (edgeCase h dstH) m := by
  have habs : (w.natAbs : Int) = w := Int.natAbs_of_nonneg (by omega)
  simp only [scaleSlope, habs, if_neg (show ¬ w < 0 by omega)]

/-- R113: a mirrored source takes the step of the source, from its right edge. -/
theorem scaleSlope_neg {w : Int} (hw : 1 ≤ w) (h dstW dstH : Int) (m : FilterMode) :
    scaleSlope (-w) h dstW dstH m = mirrorStep (edgeCase w dstW) (scaleSlope w h dstW dstH m) := by
  have habs : (w.natAbs : Int) = w := Int.natAbs_of_nonneg (by omega)
  rw [scaleSlope_of_pos hw]
  simp only [scaleSlope, Int.natAbs_neg, habs, if_pos (show -w < 0 by omega)]

/-- FixedDiv1's guard of R109 on the destination follows from the upscale. -/
theorem filteredAxis_eq (size dst : Int) : filteredAxis size dst =
    if dst ≤ size then (centerStart (fixedDiv size dst) (-32768), fixedDiv size dst)
    else if 1 < size then (0, fixedDiv1 size dst) else (0, 0) := by
  by_cases hdown : dst ≤ size
  · simp only [filteredAxis, if_pos hdown]
  · have hguard : (1 < size ∧ 1 < dst) ↔ 1 < size := by omega
    simp only [filteredAxis, if_neg hdown, hguard]

/-- Settles O43: the step is that of its mode, mirrored where the source is. -/
theorem slopeByMode : Obligations.SlopeByMode := by
  unfold Obligations.SlopeByMode
  refine ⟨fun w h dstW dstH m s hw hh hdw hdh => ?_, fun srcW srcH dstW dstH m s => ⟨fun hz => ?_, fun hz => ?_⟩⟩
  · rw [exec_fxSlope_of_dst_pos hdw hdh, exec_fxSlope_of_dst_pos hdw hdh, scaleSlope_neg hw, scaleSlope_of_pos hw]
    cases m <;> simp only [modeSlope, filteredAxis_eq, centerStart_eq, Int.shiftRight_eq_div_pow]
      <;> exact ⟨rfl, rfl⟩
  · rw [exec_fxSlope, if_pos ((slopeDividesByZero_iff ..).2 hz)]
  · rw [exec_fxSlope, if_neg (mt (slopeDividesByZero_iff ..).1 hz)]
    exact ⟨_, rfl⟩

/-! ### The coordinates of an axis (R112) -/

/-- An axis of legal dimensions, without the one pair that overflows FixedDiv (R104). -/
structure LegalAxis (size dst : Int) : Prop where
  size_pos : 1 ≤ size
  size_le : size ≤ 32768
  dst_pos : 1 ≤ dst
  dst_le : dst ≤ 32768
  no_overflow : ¬ (size = 32768 ∧ dst = 1)

theorem le_edgeCase (size dst : Int) : dst ≤ edgeCase size dst := by
  unfold edgeCase; split_ifs <;> omega

/-- R107 takes the overflowing pair out. -/
theorem legalAxis_edgeCase {size dst : Int} (hs : 1 ≤ size) (hs' : size ≤ 32768) (hd : 1 ≤ dst) (hd' : dst ≤ 32768) :
    LegalAxis size (edgeCase size dst) := by
  unfold edgeCase
  split_ifs <;> constructor <;> omega

/-- The coordinates start, start + step, ... of `n` samples go forward and do not pass `bound`. -/
structure StaysWithin (start step n bound : Int) : Prop where
  start_nonneg : 0 ≤ start
  step_nonneg : 0 ≤ step
  le_bound : ∀ j, 0 ≤ j → j < n → start + j * step ≤ bound

/-- The last sample bounds the others. -/
theorem staysWithin_of_last {start step n bound : Int} (hstart : 0 ≤ start) (hstep : 0 ≤ step)
    (hlast : start + (n - 1) * step ≤ bound) : StaysWithin start step n bound := by
  refine ⟨hstart, hstep, fun j _ hj => ?_⟩
  have : j * step ≤ (n - 1) * step := Int.mul_le_mul_of_nonneg_right (by omega) hstep
  omega

theorem StaysWithin.mono {start step n n' bound bound' : Int} (h : StaysWithin start step n bound) (hn : n' ≤ n)
    (hb : bound ≤ bound') : StaysWithin start step n' bound' :=
  ⟨h.start_nonneg, h.step_nonneg, fun j h0 hj => (h.le_bound j h0 (by omega)).trans hb⟩

namespace LegalAxis

variable {size dst : Int}

theorem fixedDiv_eq_quotient (h : LegalAxis size dst) : fixedDiv size dst = size * 65536 / dst := by
  obtain ⟨hs, hs', hd, -, hov⟩ := h
  lift size to Nat using by omega
  lift dst to Nat using by omega
  exact_mod_cast fixedDiv_exact (num := size) (den := dst) (by omega) (by omega) (by omega)

/-- `dst` steps do not leave the source. -/
theorem mul_fixedDiv_le (h : LegalAxis size dst) : dst * fixedDiv size dst ≤ size * 65536 := by
  have hd := h.dst_pos
  rw [h.fixedDiv_eq_quotient]
  exact Int.mul_ediv_self_le (by omega)

theorem fixedDiv_pos (h : LegalAxis size dst) : 1 ≤ fixedDiv size dst := by
  rw [h.fixedDiv_eq_quotient]
  obtain ⟨hs, -, hd, hd', -⟩ := h
  exact (Int.le_ediv_iff_mul_le (by omega)).2 (by omega)

/-- A downscale steps by a sample at least (R112). -/
theorem sample_le_fixedDiv (h : LegalAxis size dst) (hdown : dst ≤ size) : 65536 ≤ fixedDiv size dst := by
  have hd := h.dst_pos
  rw [h.fixedDiv_eq_quotient]
  exact (Int.le_ediv_iff_mul_le (by omega)).2 (by omega)

/-- The last of `dst` plain steps starts a step before the end of the source. -/
theorem staysWithin_fixedDiv (h : LegalAxis size dst) {start bound : Int} (hstart : 0 ≤ start)
    (hbound : start + size * 65536 - fixedDiv size dst ≤ bound) :
    StaysWithin start (fixedDiv size dst) dst bound := by
  have hpos := h.fixedDiv_pos
  have hmul := h.mul_fixedDiv_le
  refine staysWithin_of_last hstart (by omega) ?_
  rw [Int.sub_mul]
  omega

theorem staysWithin_box (h : LegalAxis size dst) : StaysWithin 0 (fixedDiv size dst) dst (size * 65536 - 1) := by
  have hpos := h.fixedDiv_pos
  exact h.staysWithin_fixedDiv le_rfl (by omega)

theorem staysWithin_halfStep (h : LegalAxis size dst) :
    StaysWithin (fixedDiv size dst / 2) (fixedDiv size dst) dst (size * 65536 - 1) := by
  have hpos := h.fixedDiv_pos
  exact h.staysWithin_fixedDiv (by omega) (by omega)

theorem staysWithin_centerStart (h : LegalAxis size dst) :
    StaysWithin (centerStart (fixedDiv size dst) 0) (fixedDiv size dst) dst (size * 65536 - 1) := by
  have hpos := h.fixedDiv_pos
  rw [centerStart_of_nonneg (by omega), Int.add_zero]
  exact h.staysWithin_halfStep

/-- A filtered axis does not pass the last source sample: a downscale by its start half a sample to the left, an upscale
by the endpoint property (R103). -/
theorem staysWithin_filteredAxis (h : LegalAxis size dst) :
    StaysWithin (filteredAxis size dst).1 (filteredAxis size dst).2 dst ((size - 1) * 65536) := by
  rw [filteredAxis_eq]
  split_ifs with hdown hone
  · have hstep := h.sample_le_fixedDiv hdown
    rw [centerStart_of_nonneg (by omega)]
    exact h.staysWithin_fixedDiv (by omega) (by omega)
  · obtain ⟨-, hlo, -⟩ := fixedDiv1_upscale (num := size) (den := dst) (by omega) (by omega)
    have hend := endpoint_fixedDiv1_le (num := size) (den := dst) (by omega) (by omega)
    exact staysWithin_of_last (start := 0) (step := fixedDiv1 size dst) le_rfl hlo (by omega)
  · have hs := h.size_pos
    exact staysWithin_of_last le_rfl le_rfl (by omega)

end LegalAxis

/-! ### The coordinates of a step (R112, R113) -/

section

variable {w h dw dh : Int}

theorem modeSlope_columns_filtered (hw : LegalAxis w dw) {m : FilterMode} (hm : m = .bilinear ∨ m = .linear) :
    StaysWithin (modeSlope w h dw dh m).x (modeSlope w h dw dh m).dx dw ((w - 1) * 65536) := by
  rcases hm with rfl | rfl <;> exact hw.staysWithin_filteredAxis

theorem modeSlope_columns (hw : LegalAxis w dw) (m : FilterMode) :
    StaysWithin (modeSlope w h dw dh m).x (modeSlope w h dw dh m).dx dw (w * 65536 - 1) := by
  cases m with
  | none => exact hw.staysWithin_centerStart
  | linear => exact (modeSlope_columns_filtered hw (.inr rfl)).mono le_rfl (by omega)
  | bilinear => exact (modeSlope_columns_filtered hw (.inl rfl)).mono le_rfl (by omega)
  | box => exact hw.staysWithin_box

theorem modeSlope_rows_bilinear (hh : LegalAxis h dh) :
    StaysWithin (modeSlope w h dw dh .bilinear).y (modeSlope w h dw dh .bilinear).dy dh ((h - 1) * 65536) :=
  hh.staysWithin_filteredAxis

theorem modeSlope_rows (hh : LegalAxis h dh) (m : FilterMode) :
    StaysWithin (modeSlope w h dw dh m).y (modeSlope w h dw dh m).dy dh (h * 65536 - 1) := by
  cases m with
  | none => exact hh.staysWithin_centerStart
  | linear =>
    change StaysWithin (fixedDiv h dh >>> (1 : Nat)) (fixedDiv h dh) dh (h * 65536 - 1)
    rw [Int.shiftRight_eq_div_pow]
    exact hh.staysWithin_halfStep
  | bilinear => exact (modeSlope_rows_bilinear hh).mono le_rfl (by omega)
  | box => exact hh.staysWithin_box

end

/-- Column `j` of the mirrored step is column `dw - 1 - j` of the step (R113). -/
theorem mirrorStep_column (dw : Int) (st : ScaleStep) (j : Int) :
    (mirrorStep dw st).x + j * (mirrorStep dw st).dx = st.x + (dw - 1 - j) * st.dx := by
  simp only [mirrorStep]
  ring

/-- Settles O44: the axes after the overflow edge case are legal, and every mode stays inside on a legal axis. -/
theorem slopeStaysInside : Obligations.SlopeStaysInside := by
  unfold Obligations.SlopeStaysInside
  intro w h dstW dstH m hw hw' hh hh' hdw hdw' hdh hdh'
  have hx := legalAxis_edgeCase hw hw' hdw hdw'
  have hy := legalAxis_edgeCase hh hh' hdh hdh'
  rw [scaleSlope_neg hw, scaleSlope_of_pos hw]
  have hcols := (modeSlope_columns (h := h) (dh := edgeCase h dstH) hx m).mono (le_edgeCase w dstW) le_rfl
  have hrows := (modeSlope_rows (w := w) (dw := edgeCase w dstW) hy m).mono (le_edgeCase h dstH) le_rfl
  refine ⟨hcols.start_nonneg, hrows.start_nonneg, hcols.step_nonneg, hrows.step_nonneg, fun j h0 hj => ⟨?_, fun hm => ?_⟩,
    fun j h0 hj => ⟨?_, ?_⟩, rfl, rfl, rfl, fun j => mirrorStep_column _ _ j⟩
  · exact Int.lt_of_le_sub_one (hcols.le_bound j h0 hj)
  · exact ((modeSlope_columns_filtered hx hm).mono (le_edgeCase w dstW) le_rfl).le_bound j h0 hj
  · exact Int.lt_of_le_sub_one (hrows.le_bound j h0 hj)
  · rintro rfl
    exact ((modeSlope_rows_bilinear hy).mono (le_edgeCase h dstH) le_rfl).le_bound j h0 hj

end Sys2Proof.Proofs.FixedPoint

/-! PROOFS. FR.REDUCE and the two selectors (R130 to R155): what each reduction step answers, the sizes that the effective
mode leaves, and the paths that a mirrored source can take. -/

namespace Sys2Proof.Proofs.ReducerAndSelector

open Sys2Proof Sys2Proof.Machine Sys2Proof.Proofs.DispatchPairs

/-! ### The reduction steps (R131 to R133) -/

section
variable {w h dstW dstH : Int} {m : FilterMode}

theorem reduceBilinear_eq_ite (w h dstH : Int) (m : FilterMode) : reduceBilinear w h dstH m =
    if m = .bilinear then (if w = 1 then .none else if h = 1 ∨ dstH = h ∨ 3 * dstH = h then .linear else m) else m := by
  unfold reduceBilinear
  split
  · subst m
    rfl
  · rfl

theorem reduceBilinear_eq_bilinear_sizes (hm : reduceBilinear w h dstH m = .bilinear) :
    w ≠ 1 ∧ ¬ (h = 1 ∨ dstH = h ∨ 3 * dstH = h) := by
  rw [reduceBilinear_eq_ite] at hm
  split_ifs at hm with _ hw hh
  · exact ⟨hw, hh⟩
  · contradiction

theorem reduceLinear_eq_linear_sizes (hm : reduceLinear w dstW m = .linear) : ¬ (w = 1 ∨ dstW = w ∨ 3 * dstW = w) := by
  unfold reduceLinear at hm
  split_ifs at hm with hkeep
  exact fun hsize => hkeep ⟨hm, hsize⟩

/-! Every step lowers the mode in the order of the codes or keeps it (R82, R134 (a)). -/

theorem filterBits_reduceBox_le (w h dstW dstH : Int) (m : FilterMode) :
    (filterBits (reduceBox w h dstW dstH m)).toNat ≤ (filterBits m).toNat := by
  unfold reduceBox
  split_ifs with hstep
  · rw [hstep.1]
    decide
  · rfl

theorem filterBits_reduceBilinear_le (w h dstH : Int) (m : FilterMode) :
    (filterBits (reduceBilinear w h dstH m)).toNat ≤ (filterBits m).toNat := by
  rw [reduceBilinear_eq_ite]
  split_ifs with hm
  · exact Nat.zero_le _
  · rw [hm]
    decide
  · rfl
  · rfl

theorem filterBits_reduceLinear_le (w dstW : Int) (m : FilterMode) :
    (filterBits (reduceLinear w dstW m)).toNat ≤ (filterBits m).toNat := by
  unfold reduceLinear
  split_ifs
  · exact Nat.zero_le _
  · rfl

theorem filterBits_reduce_le (srcW srcH dstW dstH : Int) (req : FilterMode) :
    (filterBits (reduce srcW srcH dstW dstH req)).toNat ≤ (filterBits req).toNat :=
  (filterBits_reduceLinear_le _ _ _).trans
    ((filterBits_reduceBilinear_le _ _ _ _).trans (filterBits_reduceBox_le _ _ _ _ _))

theorem reduce_none (srcW srcH dstW dstH : Int) : reduce srcW srcH dstW dstH .none = .none := rfl

/-- What each effective mode says of the sizes (R134 (c) to (e)). -/
structure ReducedFits (w h dstW dstH : Int) (m : FilterMode) : Prop where
  box : m = .box → 2 * dstW < w ∧ 2 * dstH < h
  bilinear : m = .bilinear → w ≠ 1 ∧ ¬ (h = 1 ∨ dstH = h ∨ 3 * dstH = h)
  linear : m = .linear → ¬ (w = 1 ∨ dstW = w ∨ 3 * dstW = w)

theorem reduce_reducedFits (srcW srcH dstW dstH : Int) (req : FilterMode) :
    ReducedFits srcW.natAbs srcH.natAbs dstW dstH (reduce srcW srcH dstW dstH req) where
  box := (reduce_modeFits srcW srcH dstW dstH req).box
  bilinear hm := reduceBilinear_eq_bilinear_sizes (reduceLinear_eq hm (by decide)).1
  linear := reduceLinear_eq_linear_sizes

/-! A step keeps a mode that fits the sizes. -/

theorem reduceBox_eq_self (hfits : m = .box → 2 * dstW < w ∧ 2 * dstH < h) : reduceBox w h dstW dstH m = m := by
  refine if_neg fun ⟨hm, hsize⟩ => ?_
  have := hfits hm
  omega

theorem reduceBilinear_eq_self (hfits : m = .bilinear → w ≠ 1 ∧ ¬ (h = 1 ∨ dstH = h ∨ 3 * dstH = h)) :
    reduceBilinear w h dstH m = m := by
  rw [reduceBilinear_eq_ite]
  split_ifs with hm hw hh
  · exact absurd hw (hfits hm).1
  · exact absurd hh (hfits hm).2
  · rfl
  · rfl

theorem reduceLinear_eq_self (hfits : m = .linear → ¬ (w = 1 ∨ dstW = w ∨ 3 * dstW = w)) : reduceLinear w dstW m = m :=
  if_neg fun ⟨hm, hsize⟩ => hfits hm hsize

theorem reduce_of_reducedFits {srcW srcH : Int} (hfits : ReducedFits srcW.natAbs srcH.natAbs dstW dstH m) :
    reduce srcW srcH dstW dstH m = m := by
  simp only [reduce, reduceBox_eq_self hfits.box, reduceBilinear_eq_self hfits.bilinear, reduceLinear_eq_self hfits.linear]

end

/-- Settles O46: each step lowers the mode or keeps it, and the mode that is left fits the sizes. -/
theorem reducerLaws : Obligations.ReducerLaws := by
  unfold Obligations.ReducerLaws
  intro srcW srcH dstW dstH req hw hh _ _ w h m
  have hfits := reduce_reducedFits srcW srcH dstW dstH req
  have hw : 1 ≤ w := Int.one_le_abs hw
  have hh : 1 ≤ h := Int.one_le_abs hh
  refine ⟨filterBits_reduce_le .., reduce_of_reducedFits hfits, ?_, fun hm => ?_, fun hm => ?_, ?_⟩
  · have := hfits.box
    rwa [Int.natCast_natAbs, Int.natCast_natAbs] at this
  · have := hfits.bilinear hm
    rw [Int.natCast_natAbs, Int.natCast_natAbs] at this
    omega
  · have := hfits.linear hm
    rw [Int.natCast_natAbs] at this
    omega
  · rintro rfl
    exact reduce_none ..

/-! ### The selected paths (R143 to R155) -/

/-- Settles O47, from the rows of R151 that dispatch keeps. -/
theorem reachablePairs : Obligations.ReachablePairs := by
  unfold Obligations.ReachablePairs
  intro srcW srcH dstW dstH f _ _ hw hh sel hsel
  have hpair : reachablePair sel.path sel.mode = true := by
    rcases hsel with rfl | rfl
    · exact reachablePair_of_selectedWhen hw hh (reduce_modeFits ..) (select_selectedWhen ..)
    · exact reachablePair_of_selectedWhen hw hh (reduce_modeFits ..) (select12_selectedWhen ..)
  have hrow {p : PathCode} (hp : sel.path = p) : reachablePair p sel.mode = true := hp ▸ hpair
  refine ⟨?_, fun hp => ?_, ?_, fun hp => ?_, fun hp => ?_, ?_, ?_, ?_⟩
  · rintro (hp | hp) <;> exact of_decide_eq_true (hrow hp)
  · simpa [reachablePair] using hrow hp
  · rintro (hp | hp) hbox <;> simpa [reachablePair, hbox] using hrow hp
  · simpa [reachablePair] using hrow hp
  · exact of_decide_eq_true (hrow hp)
  · rintro (hp | hp) <;> exact of_decide_eq_true (hrow hp)
  · rintro (hp | hp) <;> exact of_decide_eq_true (hrow hp)
  · rintro (hp | hp) <;> simpa [reachablePair] using hrow hp

/-- The paths that take a mirrored source: the generic ones, and BOX, which refuses it (D36). -/
def MirrorPath (p : PathCode) : Prop := p = .box ∨ p = .bilinearUp ∨ p = .bilinearDown ∨ p = .simple

/-- On a destination size the truncating division is floor division (R147). -/
theorem doubles_iff {src dst : Int} (hd : 1 ≤ dst) : doubles src dst = true ↔ (dst + 1) / 2 = src := by
  rw [doubles, Int.tdiv_eq_ediv_of_nonneg (by omega), decide_eq_true_eq]

section
variable {srcW dstW : Int} (hs : srcW < 0) (hd : 1 ≤ dstW)
include hs hd

theorem not_doubles_of_mirrored : doubles srcW dstW = false := by
  rw [Bool.eq_false_iff, Ne, doubles_iff hd]
  omega

/-- No destination width is equal to a negative SRC_W, nor a ratio of it: the tests of R143 to R147 on it fail. -/
theorem selectPath_mirrored (h dstH : Int) (m : FilterMode) : MirrorPath (selectPath srcW h dstW dstH m) := by
  have hne : ¬ dstW = srcW := by omega
  have h34 : ratio34 srcW h dstW dstH = false := decide_eq_false (by omega)
  have h2 : ratio2 srcW h dstW dstH = false := decide_eq_false (by omega)
  have h38 : ratio38 srcW h dstW dstH = false := decide_eq_false (by omega)
  have h4 : ratio4 srcW h dstW dstH = false := decide_eq_false (by omega)
  simp only [selectPath, hne, h34, h2, h38, h4, not_doubles_of_mirrored hs hd, Bool.false_eq_true, false_and, and_false,
    if_false]
  split_ifs <;> simp [MirrorPath]

theorem select12_mirrored (srcH dstH : Int) (f : FilterMode) : MirrorPath (select12 srcW srcH dstW dstH f).path := by
  simp only [select12, not_doubles_of_mirrored hs hd, Bool.false_eq_true, false_and, and_false, if_false]
  exact selectPath_mirrored hs hd _ _ _

end

/-- Settles O48, by the tests that a negative SRC_W fails. -/
theorem mirroredSourceTakesGenericPaths : Obligations.MirroredSourceTakesGenericPaths := by
  unfold Obligations.MirroredSourceTakesGenericPaths
  intro srcW srcH dstW dstH f hs _ hd _ sel hsel
  rcases hsel with rfl | rfl
  · exact selectPath_mirrored hs hd _ _ _
  · exact select12_mirrored hs hd _ _ _

/-! ### The selector operations -/

section
variable (srcW srcH dstW dstH : Int) (f : FilterMode) (s : State)

theorem exec_frReduce : exec (.frReduce srcW srcH dstW dstH f) s =
    .next { s with result := .mode (reduce srcW srcH dstW dstH f) } := rfl

theorem exec_frSelect : exec (.frSelect srcW srcH dstW dstH f) s =
    .next { s with result := .selection (select srcW srcH dstW dstH f) } := rfl

theorem exec_frSelect12 : exec (.frSelect12 srcW srcH dstW dstH f) s =
    .next { s with result := .selection (select12 srcW srcH dstW dstH f) } := rfl

end

/-- Settles O45: the steps of the model are the steps of the statement, one by one. -/
theorem selectorFollowsTheSteps : Obligations.SelectorFollowsTheSteps := by
  unfold Obligations.SelectorFollowsTheSteps
  intro srcW srcH dstW dstH req s _ _ hw hh w h m1 m2 m down twice path path12
  have hheight : (srcH.natAbs : Int) = h := Int.natCast_natAbs srcH
  have hcount : h.toNat = srcH.natAbs := by rw [← hheight, Int.toNat_natCast]
  have hm : reduce srcW srcH dstW dstH req = m := by
    simp only [reduce, reduceBilinear_eq_ite, Int.natCast_natAbs]
    rfl
  have hpath : selectPath srcW h dstW dstH m = path := by
    simp only [path, down, twice, w, selectPath, doubles_iff hw, doubles_iff hh, Int.natCast_natAbs, ratio34, ratio2,
      ratio38, ratio4, decide_eq_true_eq, and_assoc, gt_iff_lt]
  have hselect : select srcW srcH dstW dstH req =
      { path := path, mode := m, flipped := srcH < 0, height := h.toNat } := by
    simp only [select, hm, hheight, hpath, hcount]
  have hselect12 : select12 srcW srcH dstW dstH req =
      { path := path12, mode := m, flipped := srcH < 0, height := h.toNat } := by
    simp only [path12, twice, select12, doubles_iff hw, doubles_iff hh, hm, hheight, hpath, hcount]
  exact ⟨hm ▸ exec_frReduce srcW srcH dstW dstH req s, hselect ▸ exec_frSelect srcW srcH dstW dstH req s,
    hselect12 ▸ exec_frSelect12 srcW srcH dstW dstH req s⟩

end Sys2Proof.Proofs.ReducerAndSelector

/-! PROOFS. What a P operation stores that passes its checks (R212, R266, R314): a path whose rows have a formula stores
that formula on the destination plane. -/

namespace Sys2Proof.Proofs.RunningPaths

open Sys2Proof Sys2Proof.Machine

/-! ### The checks of a path that runs (R302, R311, R314) -/

/-- The sizes of planes that have passed the dimension check (R302), as counts. -/
structure LegalSizes (pl : Planes) : Prop where
  srcWidth_pos : 1 ≤ srcWidth pl
  srcWidth_le : srcWidth pl ≤ 32768
  srcHeight_pos : 1 ≤ srcHeight pl
  srcHeight_le : srcHeight pl ≤ 32768
  dstWidth_eq : pl.dstW.toInt = dstWidth pl
  dstWidth_pos : 1 ≤ dstWidth pl
  dstWidth_le : dstWidth pl ≤ 32768
  dstHeight_eq : pl.dstH.toInt = dstHeight pl
  dstHeight_pos : 1 ≤ dstHeight pl
  dstHeight_le : dstHeight pl ≤ 32768

section
variable {cfg : Config} {op : ScaleOp} {pl : Planes} {p q : PathCode} {m m' : FilterMode}

theorem legalSizes_of_preCheck (hpre : preCheck cfg op pl = none) : LegalSizes pl := by
  have hmax := cfg.maxDim.isLt
  unfold preCheck at hpre
  split at hpre
  · cases hpre
  · rename_i hdims
    simp only [Bool.not_eq_false, dimsLegal, Bool.and_eq_true, decide_eq_true_eq] at hdims
    unfold srcWidth srcHeight at hdims
    constructor <;> simp only [srcWidth, srcHeight, dstWidth, dstHeight] <;> omega

/-- The planes pass the checks that do not look at the path: steps 6 to 9 of R311. -/
def planesPass (cfg : Config) (op : ScaleOp) (pl : Planes) : Prop :=
  ¬ (spansInSpace (srcSpans op pl) = false ∨ spansInSpace (dstSpans op pl) = false) ∧
  ¬ (spansValid cfg (srcSpans op pl) = false ∨ spansValid cfg (dstSpans op pl) = false) ∧
  ¬ (spansMeet (srcSpans op pl) (dstSpans op pl) ∨ dstSelfOverlap pl)

theorem postCheck_runs_iff : postCheck cfg op pl p = .runs ↔
    ¬ (p = .box ∧ pl.srcW.toInt < 0) ∧ ¬ copyShortCircuit op pl p ∧ planesPass cfg op pl ∧
      ¬ cfg.scratchBytes < scratchDemand op pl p := by
  unfold postCheck planesPass
  split_ifs <;> simp_all

theorem pathRuns_iff : pathRuns p op pl m cfg = true ↔
    (preCheck cfg op pl = none ∧ exactRatio p pl = true ∧ modeDefined p m = true) ∧ postCheck cfg op pl p = .runs := by
  simp only [pathRuns, pathReady, Bool.and_eq_true, decide_eq_true_eq, and_assoc]

theorem legalSizes_of_pathRuns (hruns : pathRuns p op pl m cfg = true) : LegalSizes pl := by
  obtain ⟨⟨hpre, -, -⟩, -⟩ := pathRuns_iff.1 hruns
  exact legalSizes_of_preCheck hpre

theorem exactRatio_of_pathRuns (hruns : pathRuns p op pl m cfg = true) : exactRatio p pl = true := by
  obtain ⟨⟨-, hratio, -⟩, -⟩ := pathRuns_iff.1 hruns
  exact hratio

/-- SIMPLE and VERTICAL, which ask for no ratio, no mode and no scratch, run on all planes that another path runs on. -/
theorem pathRuns_of_pathRuns (hruns : pathRuns p op pl m cfg = true) (hq : q = .simple ∨ q = .vertical) :
    pathRuns q op pl m' cfg = true := by
  obtain ⟨⟨hpre, -, -⟩, hpost⟩ := pathRuns_iff.1 hruns
  obtain ⟨-, -, hpass, -⟩ := postCheck_runs_iff.1 hpost
  rcases hq with rfl | rfl
  · exact pathRuns_iff.2 ⟨⟨hpre, rfl, rfl⟩, postCheck_runs_iff.2 ⟨nofun, nofun, hpass, Nat.not_lt_zero _⟩⟩
  · exact pathRuns_iff.2 ⟨⟨hpre, rfl, rfl⟩, postCheck_runs_iff.2 ⟨nofun, nofun, hpass, Nat.not_lt_zero _⟩⟩

end

/-! ### The rows of a path as a formula over the plane -/

/-- The job that a P operation runs in a state. -/
def pathJob (op : ScaleOp) (pl : Planes) (m : FilterMode) (s : State) : PathJob where
  cfg := s.cfg
  op := op
  planes := pl
  mode := m
  mem := s.mem

/-- One write of every output row, sample (r, c) by the formula. -/
def planeRows (pl : Planes) (f : Nat → Nat → Nat) : RowWrites :=
  (List.range (dstHeight pl)).map fun r => (r, (List.range (dstWidth pl)).map (f r))

theorem writesInside_planeRows (pl : Planes) (f : Nat → Nat → Nat) : writesInside pl (planeRows pl f) = true := by
  simp [writesInside, planeRows]

/-- A plane each of whose samples has a value has the values as its rows. -/
theorem planeOf_rowOf_ok {jb : PathJob} {F : Nat → Nat → Res Nat} {f : Nat → Nat → Nat}
    (h : ∀ r < jobHd jb, ∀ c < jobWd jb, F r c = .ok (f r c)) :
    planeOf jb (fun r => rowOf (jobWd jb) (F r)) = .ok (planeRows jb.planes f) :=
  planeOf_ok _ fun r hr => rowOf_ok (f r) (h r hr)

section
variable {p : PathCode} {op : ScaleOp} {pl : Planes} {m : FilterMode} {s : State} {f : Nat → Nat → Nat}

/-- A path that runs, and whose rows have a formula, stores the formula (R212, R266). -/
theorem execPath_stores (hruns : pathRuns p op pl m s.cfg = true)
    (hrows : pathRows p (pathJob op pl m s) (pathStep pl p m) = .ok (planeRows pl f)) :
    execPath p op pl m s = .next (afterPath p (pathStep pl p m) (storePlane op pl f s.mem) s) := by
  simp only [pathRuns, Bool.and_eq_true, decide_eq_true_eq] at hruns
  obtain ⟨hready, hpost⟩ := hruns
  have hwrites : pathWrites p (pathJob op pl m s) (pathStep pl p m) = .ok (planeRows pl f) := by
    rw [pathWrites, hrows]
    exact if_pos (writesInside_planeRows pl f)
  have hrun : runPath p op pl m s = (afterPath p (pathStep pl p m) (storePlane op pl f s.mem) s, none) := by
    rcases runPath_cases p op pl m s with ⟨e, hfails, -⟩ | ⟨hshort, -⟩ | ⟨w, -, hw, hr⟩ | ⟨e, -, he, -⟩
    · cases hpost.symm.trans hfails
    · cases hpost.symm.trans hshort
    · cases hwrites.symm.trans hw
      exact hr
    · cases hwrites.symm.trans he
  rw [execPath, if_pos hready, hrun]

/-- The case of a path that computes no ScaleStep (R38). -/
theorem execPath_stores_noStep (hruns : pathRuns p op pl m s.cfg = true) (hstep : pathStep pl p m = noStep)
    (hrows : pathRows p (pathJob op pl m s) noStep = .ok (planeRows pl f)) :
    execPath p op pl m s = .next (afterPath p noStep (storePlane op pl f s.mem) s) := by
  rw [← hstep] at hrows ⊢
  exact execPath_stores hruns hrows

end

/-! ### Reads of the source plane (R64) -/

/-- A read inside the source plane answers its sample. -/
theorem jobRow_ok (op : ScaleOp) {pl : Planes} (m : FilterMode) (s : State) {r c : Nat} (hr : r < srcHeight pl)
    (hc : c < srcWidth pl) : jobRow (pathJob op pl m s) r c = .ok (srcSample op pl s.mem r c) :=
  srcRow_ok op pl s.mem hr hc

/-- A sample in memory is one of the path's sample width (R63, R265). -/
theorem srcSample_le (op : ScaleOp) (pl : Planes) (mem : Memory) (r c : Int) :
    srcSample op pl mem r c ≤ maxSample (sampleWidth op) := by
  have hlow := (Memory.read mem (srcAddr op pl r.toNat c.toNat).toNat).isLt
  have hhigh := (Memory.read mem ((srcAddr op pl r.toNat c.toNat).toNat + 1)).isLt
  cases op <;> simp only [srcSample, srcBytes, loadSample, sampleWidth, maxSample] <;> omega

end Sys2Proof.Proofs.RunningPaths

/-! PROOFS. The equalities between the plane paths (R153): on each side the stored plane is a formula over the source
samples, and at an exact ratio the two formulas are the same. -/

namespace Sys2Proof.Proofs.PathEquivalences

open Sys2Proof Sys2Proof.Machine Sys2Proof.Proofs.KernelAnswers Sys2Proof.Proofs.FixedPoint
  Sys2Proof.Proofs.RunningPaths

/-! ### Coordinates at an exact ratio (R100, R107, R109) -/

/-- The step of an axis after the overflow edge case (R107). -/
def axisStep (size dst : Nat) : Int := fixedDiv size (edgeCase size dst)

theorem axisStep_eq {size dst : Nat} (hs : size ≤ 32768) (hd : 1 ≤ dst)
    (hedge : ¬ (dst = 1 ∧ 32768 ≤ size)) : axisStep size dst = (size * 65536 / dst : Nat) := by
  have hkeep : edgeCase size dst = dst := if_neg (by omega)
  rw [axisStep, hkeep]
  exact fixedDiv_exact hs hd (by omega)

theorem axisStep_multiple {k size dst : Nat} (hk : k < 32768) (hs : size ≤ 32768) (hd : 1 ≤ dst)
    (hsize : size = k * dst) : axisStep size dst = (k * 65536 : Nat) := by
  rw [axisStep_eq hs hd (by rintro ⟨rfl, hle⟩; omega), hsize, Nat.mul_right_comm, Nat.mul_div_cancel _ (by omega)]

/-- SIMPLE point-samples source sample `K i` for destination sample `i` of an axis, inside the source (R109, R253). -/
def PointSamples (size dst : Nat) (K : Nat → Nat) : Prop :=
  ∀ i < dst, K i < size ∧ wholePart (centerStart (axisStep size dst) 0 + i * axisStep size dst) = K i

/-- At an integer ratio the point is the middle of each group of `k` samples. -/
theorem pointSamples_multiple {k size dst : Nat} (hk : 1 ≤ k) (hk' : k < 32768) (hs : size ≤ 32768) (hd : 1 ≤ dst)
    (hsize : size = k * dst) : PointSamples size dst fun i => k * i + k / 2 := by
  intro i hi
  have hstep := axisStep_multiple hk' hs hd hsize
  have hmul : k * (i + 1) ≤ size := hsize ▸ Nat.mul_le_mul_left k hi
  rw [Nat.mul_succ] at hmul
  dsimp only
  refine ⟨by omega, ?_⟩
  rw [centerStart_of_nonneg (by omega), wholePart_eq, hstep]
  have hprod : (i : Int) * ((k * 65536 : Nat) : Int) = ((k * i : Nat) : Int) * 65536 := by push_cast; ring
  omega

/-- The samples 0, 1, 3 of each group of four (R167, R220). -/
def threeQuartersPoint (i : Nat) : Nat := 4 * (i / 3) + (if i % 3 = 2 then 3 else i % 3)

/-- The truncated step 4/3 loses less than a sample over the whole axis, and the point stays where it was. -/
theorem pointSamples_threeQuarters {size dst : Nat} (hs : size ≤ 32768) (hd : 1 ≤ dst) (hratio : 4 * dst = 3 * size) :
    PointSamples size dst threeQuartersPoint := by
  intro i hi
  have hstep : axisStep size dst = 87381 := by
    rw [axisStep_eq hs hd (by omega), show size * 65536 / dst = 87381 from
      Nat.div_eq_of_lt_le (by omega) (by omega)]
    rfl
  rw [hstep, centerStart_of_nonneg (by omega), wholePart_eq]
  unfold threeQuartersPoint
  split_ifs <;> constructor <;> omega

theorem threeQuartersPoint_lt {size dst i : Nat} (hratio : 4 * dst = 3 * size) (hi : i < dst) :
    threeQuartersPoint i < size := by
  unfold threeQuartersPoint
  split_ifs <;> omega

/-! ### The point fast paths and SIMPLE (R153, R253) -/

section
variable {op : ScaleOp} {pl : Planes} {s : State} {R C : Nat → Nat}

/-- The plane that takes source sample (R r, C c) for destination sample (r, c). -/
def pointPlane (op : ScaleOp) (pl : Planes) (mem : Memory) (R C : Nat → Nat) : Nat → Nat → Nat :=
  fun r c => srcSample op pl mem (R r) (C c)

theorem scaleSlope_planes (hsizes : LegalSizes pl) (hpos : 0 < pl.srcW.toInt) (m : FilterMode) :
    scaleSlope pl.srcW.toInt (srcHeight pl) pl.dstW.toInt pl.dstH.toInt m =
      modeSlope (srcWidth pl) (srcHeight pl) (edgeCase (srcWidth pl) (dstWidth pl))
        (edgeCase (srcHeight pl) (dstHeight pl)) m := by
  have hw : pl.srcW.toInt = srcWidth pl := by unfold srcWidth; omega
  rw [scaleSlope_of_pos (by omega), hw, hsizes.dstWidth_eq, hsizes.dstHeight_eq]

theorem pathStep_simple (hsizes : LegalSizes pl) (hpos : 0 < pl.srcW.toInt) (m : FilterMode) :
    pathStep pl .simple m =
      { x := centerStart (axisStep (srcWidth pl) (dstWidth pl)) 0
        y := centerStart (axisStep (srcHeight pl) (dstHeight pl)) 0
        dx := axisStep (srcWidth pl) (dstWidth pl)
        dy := axisStep (srcHeight pl) (dstHeight pl) } := by
  change scaleSlope pl.srcW.toInt (srcHeight pl) pl.dstW.toInt pl.dstH.toInt .none = _
  rw [scaleSlope_planes hsizes hpos]
  rfl

theorem simpleRows_point (hsizes : LegalSizes pl) (hpos : 0 < pl.srcW.toInt)
    (hrow : PointSamples (srcHeight pl) (dstHeight pl) R) (hcol : PointSamples (srcWidth pl) (dstWidth pl) C) :
    pathRows .simple (pathJob op pl .none s) (pathStep pl .simple .none) =
      .ok (planeRows pl (pointPlane op pl s.mem R C)) := by
  rw [pathStep_simple hsizes hpos]
  refine planeOf_rowOf_ok (jb := pathJob op pl .none s) fun r hr c hc => ?_
  obtain ⟨hrlt, hreq⟩ := hrow r hr
  obtain ⟨hclt, hceq⟩ := hcol c hc
  dsimp only
  rw [hreq, hceq]
  exact jobRow_ok op .none s hrlt hclt

/-- A path without a step whose rows are the points of SIMPLE stores what SIMPLE stores. -/
theorem point_stores_simple {p : PathCode} (hruns : pathRuns p op pl .none s.cfg = true) (hpos : 0 < pl.srcW.toInt)
    (hstep : pathStep pl p .none = noStep)
    (hrow : PointSamples (srcHeight pl) (dstHeight pl) R) (hcol : PointSamples (srcWidth pl) (dstWidth pl) C)
    (hrows : pathRows p (pathJob op pl .none s) noStep = .ok (planeRows pl (pointPlane op pl s.mem R C))) :
    ∃ st mem, execPath p op pl .none s = .next (afterPath p noStep mem s) ∧
      execPath .simple op pl .none s = .next (afterPath .simple st mem s) := by
  have hsimple := simpleRows_point (op := op) (s := s) (legalSizes_of_pathRuns hruns) hpos hrow hcol
  exact ⟨_, _, execPath_stores_noStep hruns hstep hrows,
    execPath_stores (pathRuns_of_pathRuns hruns (.inl rfl)) hsimple⟩

/-- The case of an integer ratio on both axes. -/
theorem multiple_stores_simple {p : PathCode} {k : Nat} (hk : 1 ≤ k) (hk' : k < 32768)
    (hruns : pathRuns p op pl .none s.cfg = true) (hpos : 0 < pl.srcW.toInt) (hstep : pathStep pl p .none = noStep)
    (hwidth : srcWidth pl = k * dstWidth pl) (hheight : srcHeight pl = k * dstHeight pl)
    (hrows : pathRows p (pathJob op pl .none s) noStep =
      .ok (planeRows pl (pointPlane op pl s.mem (fun r => k * r + k / 2) (fun c => k * c + k / 2)))) :
    ∃ st mem, execPath p op pl .none s = .next (afterPath p noStep mem s) ∧
      execPath .simple op pl .none s = .next (afterPath .simple st mem s) := by
  have hsizes := legalSizes_of_pathRuns hruns
  exact point_stores_simple hruns hpos hstep
    (pointSamples_multiple hk hk' hsizes.srcHeight_le hsizes.dstHeight_pos hheight)
    (pointSamples_multiple hk hk' hsizes.srcWidth_le hsizes.dstWidth_pos hwidth) hrows

end

section
variable {op : ScaleOp} {pl : Planes} {s : State}

theorem copyRows_ok (m : FilterMode) (hwidth : dstWidth pl = srcWidth pl) (hheight : dstHeight pl = srcHeight pl) :
    copyRows (pathJob op pl m s) = .ok (planeRows pl (pointPlane op pl s.mem id id)) :=
  planeOf_rowOf_ok (jb := pathJob op pl m s) fun _ hr _ hc => jobRow_ok op m s (hheight ▸ hr) (hwidth ▸ hc)

theorem down2Rows_none_ok (hwidth : srcWidth pl = 2 * dstWidth pl) (hheight : srcHeight pl = 2 * dstHeight pl) :
    down2Rows (pathJob op pl .none s) =
      .ok (planeRows pl (pointPlane op pl s.mem (fun r => 2 * r + 1) (fun c => 2 * c + 1))) := by
  refine planeOf_rowOf_ok (jb := pathJob op pl .none s) fun r (hr : r < dstHeight pl) c (hc : c < dstWidth pl) => ?_
  exact jobRow_ok op .none s (show 2 * r + 1 < srcHeight pl by omega) (show 2 * c + 1 < srcWidth pl by omega)

theorem down4Rows_none_ok (hwidth : srcWidth pl = 4 * dstWidth pl) (hheight : srcHeight pl = 4 * dstHeight pl) :
    down4Rows (pathJob op pl .none s) =
      .ok (planeRows pl (pointPlane op pl s.mem (fun r => 4 * r + 2) (fun c => 4 * c + 2))) := by
  refine planeOf_rowOf_ok (jb := pathJob op pl .none s) fun r (hr : r < dstHeight pl) c (hc : c < dstWidth pl) => ?_
  exact jobRow_ok op .none s (show 4 * r + 2 < srcHeight pl by omega) (show 4 * c + 2 < srcWidth pl by omega)

theorem down34Point_ok {t : Reader} {f : Nat → Nat} {n : Nat} (h : ∀ i < n, t (threeQuartersPoint i) = .ok (f i)) :
    down34Point t n = .ok ((List.range n).map f) := by
  refine rowOf_ok f fun i hi => ?_
  rw [← h i hi]
  unfold threeQuartersPoint
  have hlt := Nat.mod_lt i (show 0 < 3 by decide)
  interval_cases hmod : i % 3 <;> rfl

theorem down34Rows_none_eq (hheight : dstHeight pl % 3 = 0) :
    down34Rows (pathJob op pl .none s) = planeOf (pathJob op pl .none s) fun j =>
      down34Point (jobRow (pathJob op pl .none s) (threeQuartersPoint j)) (dstWidth pl) := by
  refine planeOf_congr fun j (hj : j < dstHeight pl) => ?_
  have hfull : j / 3 < jobHd (pathJob op pl .none s) / 3 := by
    change j / 3 < dstHeight pl / 3
    omega
  rw [if_pos hfull]
  unfold threeQuartersPoint
  have hlt := Nat.mod_lt j (show 0 < 3 by decide)
  interval_cases hmod : j % 3 <;> rfl

theorem down34Rows_none_ok (hwidth : 4 * dstWidth pl = 3 * srcWidth pl) (hheight : 4 * dstHeight pl = 3 * srcHeight pl) :
    down34Rows (pathJob op pl .none s) =
      .ok (planeRows pl (pointPlane op pl s.mem threeQuartersPoint threeQuartersPoint)) := by
  rw [down34Rows_none_eq (by omega)]
  refine planeOf_ok _ fun r (hr : r < dstHeight pl) => down34Point_ok fun c hc => ?_
  exact jobRow_ok op .none s (threeQuartersPoint_lt hheight hr) (threeQuartersPoint_lt hwidth hc)

/-! ### The exact ratios (R145) -/

theorem sizes_of_ratio {a b : Nat} (hsizes : LegalSizes pl) (ha : 0 < a)
    (h : (a : Int) * pl.dstW.toInt = b * pl.srcW.toInt ∧ (a : Int) * pl.dstH.toInt = b * srcHeight pl) :
    0 < pl.srcW.toInt ∧ a * dstWidth pl = b * srcWidth pl ∧ a * dstHeight pl = b * srcHeight pl := by
  obtain ⟨hwidth, hheight⟩ := h
  rw [hsizes.dstWidth_eq] at hwidth
  rw [hsizes.dstHeight_eq] at hheight
  have hdst : 0 < (a : Int) * dstWidth pl := by exact_mod_cast Nat.mul_pos ha hsizes.dstWidth_pos
  have hpos : 0 < pl.srcW.toInt := pos_of_mul_pos_right (hwidth ▸ hdst) (Int.natCast_nonneg b)
  have hw : pl.srcW.toInt = srcWidth pl := by unfold srcWidth; omega
  rw [hw] at hwidth
  exact ⟨hpos, by exact_mod_cast hwidth, by exact_mod_cast hheight⟩

theorem sizes_of_down2 (hsizes : LegalSizes pl) (h : exactRatio .down2 pl = true) :
    0 < pl.srcW.toInt ∧ srcWidth pl = 2 * dstWidth pl ∧ srcHeight pl = 2 * dstHeight pl := by
  have := sizes_of_ratio (a := 2) (b := 1) hsizes (by decide) (by simpa [exactRatio, ratio2] using h)
  omega

theorem sizes_of_down4 (hsizes : LegalSizes pl) (h : exactRatio .down4 pl = true) :
    0 < pl.srcW.toInt ∧ srcWidth pl = 4 * dstWidth pl ∧ srcHeight pl = 4 * dstHeight pl := by
  have := sizes_of_ratio (a := 4) (b := 1) hsizes (by decide) (by simpa [exactRatio, ratio4] using h)
  omega

theorem sizes_of_down34 (hsizes : LegalSizes pl) (h : exactRatio .down34 pl = true) :
    0 < pl.srcW.toInt ∧ 4 * dstWidth pl = 3 * srcWidth pl ∧ 4 * dstHeight pl = 3 * srcHeight pl :=
  sizes_of_ratio (a := 4) (b := 3) hsizes (by decide) (by simpa [exactRatio, ratio34] using h)

theorem sizes_of_sameWidth (hsizes : LegalSizes pl) (h : pl.dstW = pl.srcW) :
    0 < pl.srcW.toInt ∧ dstWidth pl = srcWidth pl := by
  have hdst := hsizes.dstWidth_eq
  have hpos := hsizes.dstWidth_pos
  rw [h] at hdst
  unfold srcWidth
  omega

/-! ### COPY and VERTICAL at ratio 1 (R153, R213, R214) -/

theorem pathStep_vertical (hsizes : LegalSizes pl) (hheight : dstHeight pl = srcHeight pl) (m : FilterMode) :
    pathStep pl .vertical m = { x := 0, y := 0, dx := 0, dy := 65536 } := by
  have hdiv : fixedDiv (srcHeight pl) (srcHeight pl) = 65536 := by
    have hpos := hsizes.srcHeight_pos
    rw [fixedDiv_exact hsizes.srcHeight_le hpos (by omega), Nat.mul_div_cancel_left _ hpos]
    rfl
  change verticalStep (srcHeight pl) pl.dstH.toInt = _
  rw [hsizes.dstHeight_eq, hheight, verticalStep, if_pos le_rfl, hdiv]
  rfl

theorem interp_zero (t u : Reader) (n : Nat) : interp t u n 0 = rowOf n fun i => t i := by
  refine rowOf_congr fun i _ => ?_
  rcases t i with e | v <;> rfl

/-- At ratio 1 every row coordinate is whole, and a whole coordinate reads its own row alone (R184). -/
theorem verticalRows_ratioOne (hsizes : LegalSizes pl) (hwidth : pl.dstW = pl.srcW)
    (hheight : dstHeight pl = srcHeight pl) (m : FilterMode) :
    verticalRows (pathJob op pl m s) (pathStep pl .vertical m) = copyRows (pathJob op pl m s) := by
  have hratio : ratioOne pl = true := by simp [ratioOne, hwidth, hheight]
  rw [pathStep_vertical hsizes hheight]
  refine planeOf_congr fun j (hj : j < dstHeight pl) => ?_
  have hclamp : min (0 + (j : Int) * 65536) (verticalMaxY pl) = j * 65536 := by
    have := le_verticalMaxY hratio (hheight ▸ hj)
    omega
  have hwhole : wholePart (j * 65536) = j := by rw [wholePart_eq]; omega
  have hfrac : (((j : Int) * 65536) >>> (8 : Nat)) % 256 = 0 := by rw [Int.shiftRight_eq_div_pow]; omega
  change interp (jobRow (pathJob op pl m s) (wholePart (min (0 + (j : Int) * 65536) (verticalMaxY pl)))) _ _
    (if m = .bilinear then ((min (0 + (j : Int) * 65536) (verticalMaxY pl) >>> (8 : Nat)) % 256).toNat else 0) = _
  rw [hclamp, hwhole, hfrac, Int.toNat_zero, ite_self, interp_zero]

theorem copy_stores_vertical {m : FilterMode} (hruns : pathRuns .copy op pl m s.cfg = true) (hwidth : pl.dstW = pl.srcW)
    (hheight : dstHeight pl = srcHeight pl) :
    ∃ st mem, execPath .copy op pl m s = .next (afterPath .copy noStep mem s) ∧
      execPath .vertical op pl m s = .next (afterPath .vertical st mem s) := by
  have hsizes := legalSizes_of_pathRuns hruns
  have hcopy := copyRows_ok (op := op) (s := s) m (sizes_of_sameWidth hsizes hwidth).2 hheight
  exact ⟨_, _, execPath_stores hruns hcopy, execPath_stores (pathRuns_of_pathRuns hruns (.inr rfl))
    ((verticalRows_ratioOne hsizes hwidth hheight m).trans hcopy)⟩

/-- The 12-bit tests of R155 select no VERTICAL, and R143 takes ratio 1 before R144 does. -/
theorem dispatch_ratioOne_ne_vertical (hsizes : LegalSizes pl) (hwidth : pl.dstW = pl.srcW)
    (hheight : dstHeight pl = srcHeight pl) (f : FilterMode) : (dispatch op pl f).path ≠ .vertical := by
  have hselect (m : FilterMode) :
      selectPath pl.srcW.toInt pl.srcH.toInt.natAbs pl.dstW.toInt pl.dstH.toInt m = .copy := by
    rw [hwidth, hsizes.dstHeight_eq, hheight]
    exact selectPath_ratioOne _ _ m
  cases op
  case scale12 =>
    simp only [dispatch, select12, hselect]
    split_ifs <;> nofun
  all_goals
    simp only [dispatch, select, hselect]
    nofun

end

/-- Settles O60: at ratio 1 the rows of VERTICAL are the rows of COPY. -/
theorem copyEqualsVerticalAtRatioOne : Obligations.CopyEqualsVerticalAtRatioOne := by
  unfold Obligations.CopyEqualsVerticalAtRatioOne
  intro op pl m s hruns hwidth hheight
  exact ⟨dispatch_ratioOne_ne_vertical (legalSizes_of_pathRuns hruns) hwidth hheight,
    copy_stores_vertical hruns hwidth hheight⟩

/-- Settles O58: each fast path point-samples the rows and columns that SIMPLE's step points at, and VERTICAL at ratio 1 is
COPY. -/
theorem pointPathsEqualSimple : Obligations.PointPathsEqualSimple := by
  unfold Obligations.PointPathsEqualSimple
  refine ⟨fun op pl s p hp hruns => ?_, fun op pl m s _ hruns hwidth hheight => ?_⟩
  · have hsizes := legalSizes_of_pathRuns hruns
    have hratio := exactRatio_of_pathRuns hruns
    rcases hp with rfl | rfl | rfl | ⟨rfl, hwidth, hheight⟩
    · obtain ⟨hpos, hw, hh⟩ := sizes_of_down2 hsizes hratio
      exact multiple_stores_simple (by decide) (by decide) hruns hpos rfl hw hh (down2Rows_none_ok hw hh)
    · obtain ⟨hpos, hw, hh⟩ := sizes_of_down4 hsizes hratio
      exact multiple_stores_simple (by decide) (by decide) hruns hpos rfl hw hh (down4Rows_none_ok hw hh)
    · obtain ⟨hpos, hw, hh⟩ := sizes_of_down34 hsizes hratio
      exact point_stores_simple hruns hpos rfl
        (pointSamples_threeQuarters hsizes.srcHeight_le hsizes.dstHeight_pos hh)
        (pointSamples_threeQuarters hsizes.srcWidth_le hsizes.dstWidth_pos hw) (down34Rows_none_ok hw hh)
    · obtain ⟨hpos, hw⟩ := sizes_of_sameWidth hsizes hwidth
      have hid : (fun i => 1 * i + 1 / 2) = id := funext fun i => by simp
      exact multiple_stores_simple (k := 1) (by decide) (by decide) hruns hpos rfl (by omega) (by omega)
        (hid ▸ copyRows_ok .none hw hheight)
  · obtain ⟨st, mem, hcopy, hvertical⟩ := copy_stores_vertical hruns hwidth hheight
    exact ⟨st, mem, mem, hcopy, hvertical, fun _ _ _ _ => rfl⟩

end Sys2Proof.Proofs.PathEquivalences

/-! PROOFS. BOX at an integer ratio (R153, R185 to R187, R229): the sum of a block of samples and its rounded mean, which
is what the fast paths of the ratios 1/2 and 1/4 store. -/

namespace Sys2Proof.Proofs.BoxEquivalences

open Sys2Proof Sys2Proof.Machine Sys2Proof.Proofs.KernelAnswers Sys2Proof.Proofs.FixedPoint
  Sys2Proof.Proofs.RunningPaths Sys2Proof.Proofs.PathEquivalences

/-! ### Sums of consecutive samples -/

theorem sumAt_range'_succ (p : Nat → Nat) (c k : Nat) :
    sumAt p (List.range' c (k + 1)) = sumAt p (List.range' c k) + p (c + k) := by
  simp [sumAt, List.range'_1_concat]

theorem sumAt_le {p : Nat → Nat} {M : Nat} (hp : ∀ i, p i ≤ M) (c k : Nat) : sumAt p (List.range' c k) ≤ k * M := by
  induction k with
  | zero => exact Nat.zero_le _
  | succ k ih =>
    have := hp (c + k)
    rw [sumAt_range'_succ, Nat.succ_mul]
    omega

theorem sumRun_ok {t : Reader} {p : Nat → Nat} {c k : Nat} (h : ∀ i, c ≤ i → i < c + k → t i = .ok (p i)) :
    sumRun t c k = .ok (sumAt p (List.range' c k)) := by
  induction k with
  | zero => rfl
  | succ k ih =>
    have hlast : t ((c : Int) + k) = .ok (p (c + k)) := by exact_mod_cast h (c + k) (by omega) (by omega)
    rw [sumRun, ih fun i hlo hhi => h i hlo (by omega), hlast, sumAt_range'_succ]
    rfl

/-- A row given by its values reads them. -/
theorem listRow_map_range {f : Nat → Nat} {n i : Nat} (hi : i < n) : listRow ((List.range n).map f) i = .ok (f i) := by
  rw [listRow_ok (by simpa using hi)]
  simp

/-! ### The accumulator row (R185, R229) -/

section
variable (op : ScaleOp) (pl : Planes) (mem : Memory)

/-- The sum of column `c` over `k` source rows from row `r` on. -/
def columnSum (r k c : Nat) : Nat := sumAt (fun y => srcSample op pl mem y c) (List.range' r k)

/-- The sum of the block of k by k source samples that destination sample (r, c) averages. -/
def blockSum (k r c : Nat) : Nat := sumAt (columnSum op pl mem (r * k) k) (List.range' (c * k) k)

theorem columnSum_le (r k c : Nat) : columnSum op pl mem r k c ≤ k * maxSample (sampleWidth op) :=
  sumAt_le (fun _ => srcSample_le ..) r k

theorem blockSum_le (k r c : Nat) : blockSum op pl mem k r c ≤ k * (k * maxSample (sampleWidth op)) :=
  sumAt_le (fun _ => columnSum_le ..) _ k

end

/-- 256 samples do not wrap an accumulator (R185). -/
theorem wrapAcc_of_le {sw : SampleWidth} {v k : Nat} (hv : v ≤ k * maxSample sw) (hk : k ≤ 256) : wrapAcc sw v = v := by
  cases sw <;> simp only [maxSample] at hv <;> exact Nat.mod_eq_of_lt (by omega)

theorem addRow_ok {sw : SampleWidth} {t : Reader} {a v : Nat → Nat} {w : Nat} (ht : ∀ i < w, t i = .ok (v i)) :
    addRow sw t ((List.range w).map a) w = .ok ((List.range w).map fun i => wrapAcc sw (a i + v i)) := by
  rw [addRow, rowOf_ok (fun i => wrapAcc sw (a i + v i)) fun i hi => by rw [listRow_map_range hi, ht i hi]; rfl]
  simp [bind, Except.bind]

section
variable {op : ScaleOp} {pl : Planes} {s : State}

theorem accumulate_ok (m : FilterMode) {r k : Nat} (hk : k ≤ 256) (hr : r + k ≤ srcHeight pl) :
    accumulate (pathJob op pl m s) r k = .ok ((List.range (srcWidth pl)).map (columnSum op pl s.mem r k)) := by
  induction k with
  | zero =>
    refine congrArg Except.ok (List.ext_getElem (by simp [jobW, pathJob]) fun i _ _ => ?_)
    simp [columnSum, sumAt]
  | succ k ih =>
    have hread : ∀ i < srcWidth pl,
        jobRow (pathJob op pl m s) ((r : Int) + k) i = .ok (srcSample op pl s.mem (r + k : Nat) i) :=
      fun i hi => jobRow_ok op m s (show r + k < srcHeight pl by omega) hi
    have hsum : columnSum op pl s.mem r (k + 1) = fun c =>
        wrapAcc (sampleWidth op) (columnSum op pl s.mem r k c + srcSample op pl s.mem (r + k : Nat) c) := by
      funext c
      rw [← wrapAcc_of_le (columnSum_le op pl s.mem r (k + 1) c) hk, columnSum, columnSum, sumAt_range'_succ]
    rw [accumulate, ih (by omega) (by omega), hsum]
    exact addRow_ok hread

/-! ### The rows of BOX at an integer ratio (R186, R229) -/

/-- The sample of BOX: the block's sum by the truncated reciprocal of its size. -/
def boxPlane (br : BoxRound) (op : ScaleOp) (pl : Planes) (mem : Memory) (k : Nat) : Nat → Nat → Nat :=
  fun r c => boxDiv br (sampleWidth op) (blockSum op pl mem k r c) (65536 / (k * k))

theorem wholePart_multiple (k : Nat) : wholePart (k * 65536 : Nat) = k := by rw [wholePart_eq]; omega

theorem min1_natCast {k : Nat} (hk : 1 ≤ k) : min1 k = k := by unfold min1; omega

/-- An integer step has one box width and reads `k` columns for each sample (R186). -/
theorem addCols_multiple_ok {br : BoxRound} {sw : SampleWidth} {a : Nat → Nat} {w n k : Nat} (hk : 1 ≤ k)
    (hw : w = k * n) : addCols br sw ((List.range w).map a) k n 0 (k * 65536 : Nat) =
      .ok ((List.range n).map fun c => boxDiv br sw (sumAt a (List.range' (c * k) k)) (65536 / (k * k))) := by
  have hfrac : fracPart (k * 65536 : Nat) = 0 := by unfold fracPart; omega
  rw [addCols, if_neg (not_not_intro hfrac), wholePart_multiple, min1_natCast hk]
  refine rowOf_ok _ fun c hc => ?_
  have hlast : k * (c + 1) ≤ w := hw ▸ Nat.mul_le_mul_left k hc
  rw [Nat.mul_succ, Nat.mul_comm k c] at hlast
  have hsum : sumRun (listRow ((List.range w).map a)) (wholePart 0 + (c : Int) * k) k =
      .ok (sumAt a (List.range' (c * k) k)) := by
    rw [show wholePart 0 + (c : Int) * k = (c * k : Nat) by rw [wholePart_eq]; push_cast; omega]
    exact sumRun_ok fun i _ hi => listRow_map_range (by omega)
  rw [hsum, reciprocal_of_pos hk hk]
  rfl

theorem boxRowsFrom_succ_ok {jb : PathJob} {st : ScaleStep} {n j : Nat} {yj ynext : Int} {acc d : Row}
    {rest : RowWrites} (hnext : min (yj + st.dy) ((jobH jb : Int) * 2 ^ 16) = ynext)
    (hacc : accumulate jb (wholePart yj) (min1 (wholePart ynext - wholePart yj)) = .ok acc)
    (hcols : addCols jb.cfg.boxRound (sampleWidth jb.op) acc (min1 (wholePart ynext - wholePart yj)) (jobWd jb) st.x
      st.dx = .ok d)
    (hrest : boxRowsFrom jb st n (j + 1) ynext = .ok rest) : boxRowsFrom jb st (n + 1) j yj = .ok ((j, d) :: rest) := by
  rw [boxRowsFrom, hnext, hacc]
  change (addCols _ _ acc _ _ _ _ >>= _) = _
  rw [hcols]
  change (boxRowsFrom _ _ _ _ _ >>= _) = _
  rw [hrest]
  rfl

/-- The step of BOX at the ratio `k`. -/
def boxStep (k : Nat) : ScaleStep where
  x := 0
  y := 0
  dx := (k * 65536 : Nat)
  dy := (k * 65536 : Nat)

/-- Row `j` of BOX starts at source row `j * k`, and the clamp to the end of the source never cuts a box (R229). -/
theorem boxRowsFrom_multiple_ok (m : FilterMode) {k n j : Nat} (hk : 1 ≤ k) (hk' : k ≤ 256)
    (hwidth : srcWidth pl = k * dstWidth pl) (hheight : srcHeight pl = k * dstHeight pl) (hj : j + n ≤ dstHeight pl) :
    boxRowsFrom (pathJob op pl m s) (boxStep k) n j (j * k * 65536 : Nat) =
      .ok ((List.range' j n).map fun r =>
        (r, (List.range (dstWidth pl)).map (boxPlane s.cfg.boxRound op pl s.mem k r))) := by
  induction n generalizing j with
  | zero => rfl
  | succ n ih =>
    have hlast : j * k + k ≤ srcHeight pl := by
      have := Nat.mul_le_mul_left k (show j + 1 ≤ dstHeight pl by omega)
      rwa [← hheight, Nat.mul_succ, Nat.mul_comm k j] at this
    have hnext : min (((j * k * 65536 : Nat) : Int) + (k * 65536 : Nat)) ((srcHeight pl : Int) * 2 ^ 16) =
        ((j + 1) * k * 65536 : Nat) := by
      rw [Nat.succ_mul]
      omega
    have hbox : min1 (wholePart ((j + 1) * k * 65536 : Nat) - wholePart (j * k * 65536 : Nat)) = k := by
      rw [wholePart_multiple, wholePart_multiple, Nat.succ_mul, Nat.cast_add, add_sub_cancel_left, min1_natCast hk]
    refine boxRowsFrom_succ_ok (acc := (List.range (srcWidth pl)).map (columnSum op pl s.mem (j * k) k)) hnext ?_ ?_
      (ih (by omega))
    · rw [hbox, wholePart_multiple]
      exact accumulate_ok m hk' hlast
    · rw [hbox]
      exact addCols_multiple_ok hk hwidth

theorem pathStep_box (hsizes : LegalSizes pl) (hpos : 0 < pl.srcW.toInt) (m : FilterMode) :
    pathStep pl .box m =
      { x := 0
        y := 0
        dx := axisStep (srcWidth pl) (dstWidth pl)
        dy := axisStep (srcHeight pl) (dstHeight pl) } := by
  change scaleSlope pl.srcW.toInt (srcHeight pl) pl.dstW.toInt pl.dstH.toInt .box = _
  rw [scaleSlope_planes hsizes hpos]
  rfl

theorem boxRows_multiple_ok (hsizes : LegalSizes pl) (hpos : 0 < pl.srcW.toInt) (m : FilterMode) {k : Nat} (hk : 1 ≤ k)
    (hk' : k ≤ 256) (hwidth : srcWidth pl = k * dstWidth pl) (hheight : srcHeight pl = k * dstHeight pl) :
    pathRows .box (pathJob op pl m s) (pathStep pl .box m) =
      .ok (planeRows pl (boxPlane s.cfg.boxRound op pl s.mem k)) := by
  have hstep : pathStep pl .box m = boxStep k := by
    rw [pathStep_box hsizes hpos, axisStep_multiple (by omega) hsizes.srcWidth_le hsizes.dstWidth_pos hwidth,
      axisStep_multiple (by omega) hsizes.srcHeight_le hsizes.dstHeight_pos hheight]
    rfl
  have hrange : List.range (dstHeight pl) = List.range' 0 (dstHeight pl) := List.range_eq_range'
  have hrows := boxRowsFrom_multiple_ok (op := op) (s := s) (n := dstHeight pl) (j := 0) m hk hk' hwidth hheight (by omega)
  rw [Nat.zero_mul, Nat.zero_mul] at hrows
  rw [hstep, planeRows, hrange]
  exact hrows

end

/-! ### The rounded mean (R164, R166, R187) -/

/-- The reciprocals of 4 and 16 are exact, and no intermediate of R187 wraps. -/
theorem boxDiv_nearest_four {sw : SampleWidth} {v : Nat} (hv : v ≤ 2 * (2 * maxSample sw)) :
    boxDiv .nearest sw v (65536 / (2 * 2)) = (v + 2) >>> 2 := by
  cases sw <;> simp only [maxSample] at hv <;> simp only [boxDiv, Nat.shiftRight_eq_div_pow] <;> omega

theorem boxDiv_nearest_sixteen {sw : SampleWidth} {v : Nat} (hv : v ≤ 4 * (4 * maxSample sw)) :
    boxDiv .nearest sw v (65536 / (4 * 4)) = (v + 8) >>> 4 := by
  cases sw <;> simp only [maxSample] at hv <;> simp only [boxDiv, Nat.shiftRight_eq_div_pow] <;> omega

theorem sumAt_two (p : Nat → Nat) (c : Nat) : sumAt p (List.range' c 2) = p c + p (c + 1) := by
  rw [sumAt_range'_succ, sumAt_range'_succ]
  simp [sumAt]

theorem sumAt_four (p : Nat → Nat) (c : Nat) :
    sumAt p (List.range' c 4) = p c + p (c + 1) + p (c + 2) + p (c + 3) := by
  rw [sumAt_range'_succ, sumAt_range'_succ, sumAt_two]

section
variable (op : ScaleOp) (pl : Planes) (mem : Memory) (r c : Nat)

theorem boxPlane_two : boxPlane .nearest op pl mem 2 r c =
    (srcSample op pl mem (2 * r : Nat) (2 * c : Nat) + srcSample op pl mem (2 * r : Nat) (2 * c + 1 : Nat) +
      srcSample op pl mem (2 * r + 1 : Nat) (2 * c : Nat) + srcSample op pl mem (2 * r + 1 : Nat) (2 * c + 1 : Nat) +
      2) >>> 2 := by
  rw [boxPlane, boxDiv_nearest_four (blockSum_le ..)]
  simp only [blockSum, columnSum, sumAt_two, Nat.mul_comm 2]
  congr 1
  omega

/-- The sum of a block by its rows. -/
theorem boxPlane_four : boxPlane .nearest op pl mem 4 r c =
    (sumAt (fun x => srcSample op pl mem (4 * r : Nat) x) (List.range' (4 * c) 4) +
      sumAt (fun x => srcSample op pl mem (4 * r + 1 : Nat) x) (List.range' (4 * c) 4) +
      sumAt (fun x => srcSample op pl mem (4 * r + 2 : Nat) x) (List.range' (4 * c) 4) +
      sumAt (fun x => srcSample op pl mem (4 * r + 3 : Nat) x) (List.range' (4 * c) 4) + 8) >>> 4 := by
  rw [boxPlane, boxDiv_nearest_sixteen (blockSum_le ..)]
  simp only [blockSum, columnSum, sumAt_four, Nat.mul_comm 4]
  congr 1
  omega

end

/-! ### The fast paths (R164, R166, R216, R218) -/

section
variable {t u v w : Reader} {p q p' q' : Nat → Nat} {n : Nat}

theorem down2Box_ok (ht : ∀ x < 2 * n, t x = .ok (p x)) (hu : ∀ x < 2 * n, u x = .ok (q x)) :
    down2Box t u n =
      .ok ((List.range n).map fun i => (p (2 * i) + p (2 * i + 1) + q (2 * i) + q (2 * i + 1) + 2) >>> 2) := by
  refine rowOf_ok _ fun i hi => ?_
  have ht0 : t (2 * (i : Int)) = .ok (p (2 * i)) := by exact_mod_cast ht (2 * i) (by omega)
  have ht1 : t (2 * (i : Int) + 1) = .ok (p (2 * i + 1)) := by exact_mod_cast ht (2 * i + 1) (by omega)
  have hu0 : u (2 * (i : Int)) = .ok (q (2 * i)) := by exact_mod_cast hu (2 * i) (by omega)
  have hu1 : u (2 * (i : Int) + 1) = .ok (q (2 * i + 1)) := by exact_mod_cast hu (2 * i + 1) (by omega)
  rw [ht0, ht1, hu0, hu1]
  rfl

theorem down4Box_ok (ht : ∀ x < 4 * n, t x = .ok (p x)) (hu : ∀ x < 4 * n, u x = .ok (q x))
    (hv : ∀ x < 4 * n, v x = .ok (p' x)) (hw : ∀ x < 4 * n, w x = .ok (q' x)) :
    down4Box t u v w n =
      .ok ((List.range n).map fun i => (sumAt p (List.range' (4 * i) 4) + sumAt q (List.range' (4 * i) 4) +
        sumAt p' (List.range' (4 * i) 4) + sumAt q' (List.range' (4 * i) 4) + 8) >>> 4) := by
  refine rowOf_ok _ fun i hi => ?_
  have hrun {t : Reader} {p : Nat → Nat} (ht : ∀ x < 4 * n, t x = .ok (p x)) :
      sumRun t (4 * (i : Int)) 4 = .ok (sumAt p (List.range' (4 * i) 4)) := by
    exact_mod_cast sumRun_ok (c := 4 * i) fun x _ hx => ht x (by omega)
  rw [hrun ht, hrun hu, hrun hv, hrun hw]
  rfl

end

section
variable {op : ScaleOp} {pl : Planes} {s : State}

theorem down2Rows_bilinear_ok (hwidth : srcWidth pl = 2 * dstWidth pl) (hheight : srcHeight pl = 2 * dstHeight pl) :
    down2Rows (pathJob op pl .bilinear s) = .ok (planeRows pl (boxPlane .nearest op pl s.mem 2)) := by
  refine planeOf_ok _ fun r (hr : r < dstHeight pl) => ?_
  rw [funext (boxPlane_two op pl s.mem r)]
  have hread {y : Nat} (hy : y < srcHeight pl) (x : Nat) (hx : x < 2 * dstWidth pl) :=
    jobRow_ok op .bilinear s hy (hwidth ▸ hx)
  exact down2Box_ok (hread (show 2 * r < srcHeight pl by omega)) (hread (show 2 * r + 1 < srcHeight pl by omega))

theorem down4Rows_box_ok (hwidth : srcWidth pl = 4 * dstWidth pl) (hheight : srcHeight pl = 4 * dstHeight pl) :
    down4Rows (pathJob op pl .box s) = .ok (planeRows pl (boxPlane .nearest op pl s.mem 4)) := by
  refine planeOf_ok _ fun r (hr : r < dstHeight pl) => ?_
  rw [funext (boxPlane_four op pl s.mem r)]
  have hread {y : Nat} (hy : y < srcHeight pl) (x : Nat) (hx : x < 4 * dstWidth pl) :=
    jobRow_ok op .box s hy (hwidth ▸ hx)
  exact down4Box_ok (hread (show 4 * r < srcHeight pl by omega)) (hread (show 4 * r + 1 < srcHeight pl by omega))
    (hread (show 4 * r + 2 < srcHeight pl by omega)) (hread (show 4 * r + 3 < srcHeight pl by omega))

/-- A path without a step whose rows are the block means stores what BOX stores. -/
theorem block_stores_box {p : PathCode} {m : FilterMode} {k : Nat} (hk : 1 ≤ k) (hk' : k ≤ 256)
    (hround : s.cfg.boxRound = .nearest) (hbox : pathRuns .box op pl .box s.cfg = true)
    (hruns : pathRuns p op pl m s.cfg = true) (hstep : pathStep pl p m = noStep) (hpos : 0 < pl.srcW.toInt)
    (hwidth : srcWidth pl = k * dstWidth pl) (hheight : srcHeight pl = k * dstHeight pl)
    (hrows : pathRows p (pathJob op pl m s) noStep = .ok (planeRows pl (boxPlane .nearest op pl s.mem k))) :
    ∃ st mem, execPath p op pl m s = .next (afterPath p noStep mem s) ∧
      execPath .box op pl .box s = .next (afterPath .box st mem s) := by
  have hblock := boxRows_multiple_ok (op := op) (s := s) (legalSizes_of_pathRuns hbox) hpos .box hk hk' hwidth hheight
  exact ⟨_, _, execPath_stores_noStep hruns hstep hrows, execPath_stores hbox (hround ▸ hblock)⟩

end

/-- Settles O59: the kernels of the fast paths and BOX both store the rounded means of the blocks. -/
theorem boxPathsEqualFastPaths : Obligations.BoxPathsEqualFastPaths := by
  unfold Obligations.BoxPathsEqualFastPaths
  intro op pl s hround hbox
  have hsizes := legalSizes_of_pathRuns hbox
  refine ⟨fun hruns => ?_, fun hruns => ?_⟩
  · obtain ⟨hpos, hw, hh⟩ := sizes_of_down2 hsizes (exactRatio_of_pathRuns hruns)
    exact block_stores_box (by decide) (by decide) hround hbox hruns rfl hpos hw hh (down2Rows_bilinear_ok hw hh)
  · obtain ⟨hpos, hw, hh⟩ := sizes_of_down4 hsizes (exactRatio_of_pathRuns hruns)
    exact block_stores_box (by decide) (by decide) hround hbox hruns rfl hpos hw hh (down4Rows_box_ok hw hh)

end Sys2Proof.Proofs.BoxEquivalences

/-! PROOFS. What a row kernel answers on rows that hold every sample it reads (R160 to R187): one lemma per kernel, over
the values of the rows it is given. Here the kernels of the exact downscale ratios (R162 to R173). -/

namespace Sys2Proof.Proofs.RowKernels

open Sys2Proof Sys2Proof.Machine Sys2Proof.Proofs.KernelAnswers Sys2Proof.Proofs.PathEquivalences
  Sys2Proof.Proofs.BoxEquivalences

/-! ### Rows that hold what a kernel reads -/

/-- The first n reads of the row answer the values of p. -/
def Reads (t : Reader) (p : Nat → Nat) (n : Nat) : Prop := ∀ i < n, t i = .ok (p i)

theorem reads_listRow {s : Row} {n : Nat} (h : n ≤ s.length) : Reads (listRow s) (sampleOf s) n := fun i hi => by
  rw [listRow_ok (by omega), sampleOf, List.getD_eq_getElem _ _ (by omega)]

/-- A computation goes on with the answer of its first step. -/
theorem bind_eq_of_ok {α β : Type} {r : Res α} {v : α} (h : r = .ok v) {f : α → Res β} {r' : Res β} (hf : f v = r') :
    (r >>= f) = r' := by
  rw [h, ← hf]
  rfl

section
variable {t : Reader} {p : Nat → Nat} {m n : Nat}

theorem Reads.mono (h : Reads t p n) (hm : m ≤ n) : Reads t p m := fun i hi => h i (by omega)

theorem Reads.at (h : Reads t p n) {c : Int} (k : Nat) (hc : c = k := by omega) (hk : k < n := by omega) :
    t c = .ok (p k) := hc ▸ h k hk

/-- A computation that begins with the read of sample k goes on with its value. -/
theorem Reads.bind_eq {β : Type} (h : Reads t p n) {c : Int} {f : Nat → Res β} {r : Res β} (k : Nat)
    (hf : f (p k) = r) (hc : c = k := by omega) (hk : k < n := by omega) : (t c >>= f) = r :=
  bind_eq_of_ok (h.at k hc hk) hf

theorem Reads.sumRun (h : Reads t p n) {c : Int} (k w : Nat) (hc : c = k := by omega) (hk : k + w ≤ n := by omega) :
    Machine.sumRun t c w = .ok (sumAt p (List.range' k w)) :=
  hc ▸ sumRun_ok fun i _ hi => h i (by omega)

end

/-! ### Answers in the result port (log 5) -/

theorem answerRow_of_ok {r : Res Row} {d : Row} (h : r = .ok d) (st : State) :
    answerRow r st = .next { st with result := .row d } := by rw [h, answerRow_ok, setResult]

theorem answerRowPair_of_ok {r : Res (Row × Row)} {d e : Row} (h : r = .ok (d, e)) (st : State) :
    answer (r.map fun de => .rowPair de.1 de.2) st = .next { st with result := .rowPair d e } := by
  rw [h]
  rfl

/-! ### The ratios 1/2 and 1/4 (R162 to R166) -/

section
variable {t : Reader} {p : Nat → Nat} {n : Nat}

theorem down2Point_ok (ht : Reads t p (2 * n)) : down2Point t n = .ok ((List.range n).map fun i => p (2 * i + 1)) :=
  rowOf_ok _ fun i _ => ht.at (2 * i + 1)

theorem down2Linear_ok (ht : Reads t p (2 * n)) :
    down2Linear t n = .ok ((List.range n).map fun i => (p (2 * i) + p (2 * i + 1) + 1) / 2) :=
  rowOf_ok _ fun i _ => ht.bind_eq (2 * i) <| ht.bind_eq (2 * i + 1) <| congrArg _ (Nat.shiftRight_eq_div_pow _ 1)

theorem down4Point_ok (ht : Reads t p (4 * n)) : down4Point t n = .ok ((List.range n).map fun i => p (4 * i + 2)) :=
  rowOf_ok _ fun i _ => ht.at (4 * i + 2)

end

section
variable {t u v w : Reader} {p q p' q' : Nat → Nat} {n : Nat}

theorem down2Box_mean_ok (ht : Reads t p (2 * n)) (hu : Reads u q (2 * n)) :
    down2Box t u n =
      .ok ((List.range n).map fun i => (p (2 * i) + p (2 * i + 1) + q (2 * i) + q (2 * i + 1) + 2) / 4) := by
  simpa only [Nat.shiftRight_eq_div_pow, Nat.reducePow] using down2Box_ok ht hu

theorem down4Box_mean_ok (ht : Reads t p (4 * n)) (hu : Reads u q (4 * n)) (hv : Reads v p' (4 * n))
    (hw : Reads w q' (4 * n)) :
    down4Box t u v w n = .ok ((List.range n).map fun i =>
      (([p, q, p', q'].map fun r => sumAt r ((List.range 4).map (4 * i + ·))).sum + 8) / 16) := by
  simpa only [Nat.shiftRight_eq_div_pow, Nat.reducePow, List.range'_eq_map_range, List.map_cons, List.map_nil,
    List.sum_cons, List.sum_nil, Nat.add_zero, Nat.add_assoc] using down4Box_ok ht hu hv hw

end

/-- Settles O49: the kernels of the ratios 1/2 and 1/4, each on rows that hold its reads. -/
theorem halfAndQuarterKernels : Obligations.HalfAndQuarterKernels := by
  unfold Obligations.HalfAndQuarterKernels
  intro sw s t u v n st
  refine ⟨fun hs => ⟨?_, ?_⟩, fun hs ht => ?_, fun hs => ?_, fun hs ht hu hv => ?_⟩
  · exact answerRow_of_ok (down2Point_ok (reads_listRow hs)) st
  · exact answerRow_of_ok (down2Linear_ok (reads_listRow hs)) st
  · exact answerRow_of_ok (down2Box_mean_ok (reads_listRow hs) (reads_listRow ht)) st
  · exact answerRow_of_ok (down4Point_ok (reads_listRow hs)) st
  · exact answerRow_of_ok
      (down4Box_mean_ok (reads_listRow hs) (reads_listRow ht) (reads_listRow hu) (reads_listRow hv)) st

/-! ### The ratio 3/4 (R167 to R170) -/

section
variable {t u : Reader} {p q : Nat → Nat} {g n : Nat}

theorem down34H_ok (ht : Reads t p (4 * g + 4)) {k : Nat} (hk : k < 3) :
    down34H t g k = .ok (threeQuarters p (3 * g + k)) := by
  have hgroup : (3 * g + k) / 3 = g := by omega
  have hphase : (3 * g + k) % 3 = k := by omega
  unfold threeQuarters
  rw [hgroup, hphase]
  match k with
  | 0 => exact ht.bind_eq (4 * g) <| ht.bind_eq (4 * g + 1) <| congrArg _ (Nat.shiftRight_eq_div_pow _ 2)
  | 1 => exact ht.bind_eq (4 * g + 1) <| ht.bind_eq (4 * g + 2) <| congrArg _ (Nat.shiftRight_eq_div_pow _ 1)
  | 2 => exact ht.bind_eq (4 * g + 2) <| ht.bind_eq (4 * g + 3) <| congrArg _ (Nat.shiftRight_eq_div_pow _ 2)

/-- Output i of a row of whole groups is component i % 3 of the group i / 3. -/
theorem down34H_output_ok (ht : Reads t p (4 * g)) {i : Nat} (hi : i < 3 * g) :
    down34H t (i / 3 : Nat) (i % 3) = .ok (threeQuarters p i) := by
  rw [down34H_ok (ht.mono (by omega)) (Nat.mod_lt _ (by decide)), Nat.div_add_mod]

theorem down34Box0_ok (ht : Reads t p (4 * g)) (hu : Reads u q (4 * g)) :
    down34Box0 t u (3 * g) =
      .ok ((List.range (3 * g)).map fun i => (3 * threeQuarters p i + threeQuarters q i + 2) / 4) :=
  rowOf_ok _ fun _ hi => bind_eq_of_ok (down34H_output_ok ht hi) <| bind_eq_of_ok (down34H_output_ok hu hi) <|
    congrArg _ (Nat.shiftRight_eq_div_pow _ 2)

theorem down34Box1_ok (ht : Reads t p (4 * g)) (hu : Reads u q (4 * g)) :
    down34Box1 t u (3 * g) =
      .ok ((List.range (3 * g)).map fun i => (threeQuarters p i + threeQuarters q i + 1) / 2) :=
  rowOf_ok _ fun _ hi => bind_eq_of_ok (down34H_output_ok ht hi) <| bind_eq_of_ok (down34H_output_ok hu hi) <|
    congrArg _ (Nat.shiftRight_eq_div_pow _ 1)

end

/-- Settles O50: each output is a function of the components of its group's filter H. -/
theorem threeQuarterKernels : Obligations.ThreeQuarterKernels := by
  unfold Obligations.ThreeQuarterKernels
  intro sw s t g st hs
  have hreads := reads_listRow hs
  refine ⟨?_, fun k hk => ?_, fun ht => ⟨?_, ?_⟩⟩
  · exact answerRow_of_ok (down34Point_ok fun i hi =>
      hreads (threeQuartersPoint i) (threeQuartersPoint_lt (by omega) hi)) st
  · exact answerRow_of_ok (rowOf_ok _ fun i hi => down34H_ok (hreads.mono (by omega)) hi) st
  · exact answerRow_of_ok (down34Box0_ok hreads (reads_listRow ht)) st
  · exact answerRow_of_ok (down34Box1_ok hreads (reads_listRow ht)) st

/-! ### The ratio 3/8 (R171 to R173) -/

theorem threeEighthsColumns_eq_range' (i : Nat) :
    threeEighthsColumns i = List.range' (8 * (i / 3) + (down38Cols (i % 3)).1) (down38Cols (i % 3)).2 := by
  unfold threeEighthsColumns
  have hlt := Nat.mod_lt i (show 0 < 3 by decide)
  interval_cases i % 3 <;> rfl

theorem down38Cols_end_le (k : Nat) : (down38Cols k).1 + (down38Cols k).2 ≤ 8 := by
  unfold down38Cols
  split <;> decide

section
variable {t u v : Reader} {p q r : Nat → Nat} {g : Nat}

theorem down38Point_ok (ht : Reads t p (8 * g)) :
    down38Point t (3 * g) = .ok ((List.range (3 * g)).map fun i => p (8 * (i / 3) + 3 * (i % 3))) := by
  refine rowOf_ok _ fun i hi => ?_
  have hlt := Nat.mod_lt i (show 0 < 3 by decide)
  interval_cases hmod : i % 3
  · exact ht.at (8 * (i / 3) + 3 * 0)
  · exact ht.at (8 * (i / 3) + 3 * 1)
  · exact ht.at (8 * (i / 3) + 3 * 2)

/-- The sum of a row over the columns of box i. -/
theorem down38Run_ok (ht : Reads t p (8 * g)) {i : Nat} (hi : i < 3 * g) :
    sumRun t (8 * (i / 3 : Nat) + (down38Cols (i % 3)).1) (down38Cols (i % 3)).2 =
      .ok (sumAt p (threeEighthsColumns i)) := by
  have hend := down38Cols_end_le (i % 3)
  rw [threeEighthsColumns_eq_range']
  exact ht.sumRun _ _

theorem down38Box2_ok (ht : Reads t p (8 * g)) (hu : Reads u q (8 * g)) :
    down38Box2 t u (3 * g) = .ok ((List.range (3 * g)).map fun i =>
      (sumAt p (threeEighthsColumns i) + sumAt q (threeEighthsColumns i)) *
        (if i % 3 = 2 then 16384 else 10922) / 65536) :=
  rowOf_ok _ fun _ hi => bind_eq_of_ok (down38Run_ok ht hi) <| bind_eq_of_ok (down38Run_ok hu hi) <|
    congrArg _ (Nat.shiftRight_eq_div_pow _ 16)

theorem down38Box3_ok (ht : Reads t p (8 * g)) (hu : Reads u q (8 * g)) (hv : Reads v r (8 * g)) :
    down38Box3 t u v (3 * g) = .ok ((List.range (3 * g)).map fun i =>
      (sumAt p (threeEighthsColumns i) + sumAt q (threeEighthsColumns i) + sumAt r (threeEighthsColumns i)) *
        (if i % 3 = 2 then 10922 else 7281) / 65536) :=
  rowOf_ok _ fun _ hi => bind_eq_of_ok (down38Run_ok ht hi) <| bind_eq_of_ok (down38Run_ok hu hi) <|
    bind_eq_of_ok (down38Run_ok hv hi) <| congrArg _ (Nat.shiftRight_eq_div_pow _ 16)

end

/-- Settles O51: each box sums the columns of its output in every row. -/
theorem threeEighthsKernels : Obligations.ThreeEighthsKernels := by
  unfold Obligations.ThreeEighthsKernels
  intro sw s t u g st hs
  have hreads := reads_listRow hs
  simp only [List.map_cons, List.map_nil, List.sum_cons, List.sum_nil, Nat.add_zero, ← Nat.add_assoc]
  refine ⟨?_, fun ht => ?_, fun ht hu => ?_⟩
  · exact answerRow_of_ok (down38Point_ok hreads) st
  · exact answerRow_of_ok (down38Box2_ok hreads (reads_listRow ht)) st
  · exact answerRow_of_ok (down38Box3_ok hreads (reads_listRow ht) (reads_listRow hu)) st

end Sys2Proof.Proofs.RowKernels

/-! PROOFS. The exact 2x upscale kernels (R174 to R178): the core writes pairs of outputs side by side into a row, and
the full row is a core between two edges. -/

namespace Sys2Proof.Proofs.DoublingKernels

open Sys2Proof Sys2Proof.Machine Sys2Proof.Proofs.RowKernels

/-! ### The exact doublings: pairs written into a row (R174, R177) -/

/-- The row d with the pairs (even k, odd k), k < p, written from index o on. -/
def withPairs (o p : Nat) (even odd : Nat → Nat) (d : Row) : Row :=
  (List.range d.length).map fun i =>
    if i < o ∨ o + 2 * p ≤ i then sampleOf d i
    else if (i - o) % 2 = 0 then even ((i - o) / 2) else odd ((i - o) / 2)

theorem setAt_ok {d : Row} {i v w : Nat} (hi : i < d.length) (hv : v = w) : setAt d i v = .ok (d.set i w) := by
  rw [setAt, if_pos hi, hv]

section
variable {o p : Nat} {even odd : Nat → Nat} {d : Row}

@[simp] theorem length_withPairs : (withPairs o p even odd d).length = d.length := by simp [withPairs]

theorem getElem_withPairs {i : Nat} (hi : i < d.length) :
    (withPairs o p even odd d)[i]'(by simpa using hi) =
      if i < o ∨ o + 2 * p ≤ i then d[i]
      else if (i - o) % 2 = 0 then even ((i - o) / 2) else odd ((i - o) / 2) := by
  simp [withPairs, sampleOf, hi]

theorem withPairs_zero : withPairs o 0 even odd d = d :=
  List.ext_getElem length_withPairs fun i _ hi => by rw [getElem_withPairs hi, if_pos (by omega)]

/-- The next pair goes to the two indices after the pairs written so far. -/
theorem set_withPairs :
    ((withPairs o p even odd d).set (o + 2 * p) (even p)).set (o + 2 * p + 1) (odd p) =
      withPairs o (p + 1) even odd d := by
  refine List.ext_getElem (by simp) fun i _ hi => ?_
  rw [length_withPairs] at hi
  rw [List.getElem_set, List.getElem_set, getElem_withPairs hi, getElem_withPairs hi]
  obtain rfl | rfl | hne : i = o + 2 * p ∨ i = o + 2 * p + 1 ∨ (i ≠ o + 2 * p ∧ i ≠ o + 2 * p + 1) := by omega
  · rw [if_neg (by omega), if_pos rfl, if_neg (by omega), if_pos (by omega), show (o + 2 * p - o) / 2 = p by omega]
  · rw [if_pos rfl, if_neg (by omega), if_neg (by omega), show (o + 2 * p + 1 - o) / 2 = p by omega]
  · rw [if_neg (by omega), if_neg (by omega)]
    exact if_congr (by omega) rfl rfl

end

/-- Output c of n of a row of pairs between two edges, the last written last (R175, R178). -/
def edgedPairs (edge even odd : Nat → Nat) (n c : Nat) : Nat :=
  if c = n - 1 then edge ((n - 1) / 2)
  else if c = 0 then edge 0
  else if c % 2 = 1 then even ((c - 1) / 2) else odd ((c - 1) / 2)

theorem set_edges_withPairs (edge even odd : Nat → Nat) (n : Nat) :
    (withPairs 1 ((n - 1) / 2) even odd ((List.replicate n 0).set 0 (edge 0))).set (n - 1) (edge ((n - 1) / 2)) =
      (List.range n).map (edgedPairs edge even odd n) := by
  refine List.ext_getElem (by simp) fun c _ hc => ?_
  have hlen : c < ((List.replicate n 0).set 0 (edge 0)).length := by simpa using hc
  rw [List.getElem_set, getElem_withPairs hlen, List.getElem_map, List.getElem_range, edgedPairs]
  simp only [List.length_map, List.length_range] at hc
  by_cases hlast : c = n - 1
  · rw [if_pos hlast.symm, if_pos hlast]
  · rw [if_neg (Ne.symm hlast), if_neg hlast]
    by_cases h0 : c = 0
    · subst h0
      rw [if_pos (by omega), if_pos rfl, List.getElem_set_self]
    · rw [if_neg (by omega), if_neg h0]
      exact if_congr (by omega) rfl rfl

/-! ### The linear doubling (R174 to R176) -/

/-- The first output of pair k of the linear doubling (R174). -/
def linearEven (p : Nat → Nat) (k : Nat) : Nat := (3 * p k + p (k + 1) + 2) / 4

/-- The second output of pair k of the linear doubling (R174). -/
def linearOdd (p : Nat → Nat) (k : Nat) : Nat := (p k + 3 * p (k + 1) + 2) / 4

theorem doubledRow_eq_edgedPairs (p : Nat → Nat) (n : Nat) :
    doubledRow p n = edgedPairs p (linearEven p) (linearOdd p) n := rfl

section
variable {t : Reader} {p : Nat → Nat} {n : Nat}

theorem up2LinearCore_ok (ht : Reads t p n) {k o : Nat} {d : Row} (hk : k + 1 ≤ n ∨ k = 0)
    (hd : o + 2 * k ≤ d.length) :
    up2LinearCore t k d o = .ok (withPairs o k (linearEven p) (linearOdd p) d) := by
  induction k with
  | zero => exact congrArg _ withPairs_zero.symm
  | succ k ih =>
    rw [← set_withPairs]
    refine bind_eq_of_ok (ih (by omega) (by omega)) <| ht.bind_eq k <| ht.bind_eq (k + 1) <|
      bind_eq_of_ok (setAt_ok ?_ (Nat.shiftRight_eq_div_pow _ 2)) (setAt_ok ?_ (Nat.shiftRight_eq_div_pow _ 2))
    · rw [length_withPairs]
      omega
    · rw [List.length_set, length_withPairs]
      omega

theorem up2Linear_ok (hn : 1 ≤ n) (ht : Reads t p ((n + 1) / 2)) :
    up2Linear t n = .ok ((List.range n).map (doubledRow p n)) := by
  rw [doubledRow_eq_edgedPairs, ← set_edges_withPairs]
  refine ht.bind_eq 0 <| bind_eq_of_ok (setAt_ok ?_ rfl) <|
    bind_eq_of_ok (up2LinearCore_ok ht (by omega) ?_) <| ht.bind_eq ((n - 1) / 2) (setAt_ok ?_ rfl)
  · rw [List.length_replicate]
    omega
  · rw [List.length_set, List.length_replicate]
    omega
  · rw [length_withPairs, List.length_set, List.length_replicate]
    omega

end

/-- Settles O52: the core by induction on the number of pairs, the row by its two edges around the core. -/
theorem linearDoublingKernels : Obligations.LinearDoublingKernels := by
  unfold Obligations.LinearDoublingKernels
  intro sw s st
  refine ⟨fun p o d hp hd => ?_, fun n hn hs => ?_⟩
  · exact answerRow_of_ok (up2LinearCore_ok (reads_listRow le_rfl) hp hd) st
  · exact answerRow_of_ok (up2Linear_ok hn (reads_listRow hs)) st

/-! ### The bilinear doubling (R177, R178) -/

/-- The first output of pair k of the row nearer to p than to q (R177). -/
def bilinearEven (p q : Nat → Nat) (k : Nat) : Nat := (9 * p k + 3 * p (k + 1) + 3 * q k + q (k + 1) + 8) / 16

/-- The second output of pair k of the row nearer to p than to q (R177). -/
def bilinearOdd (p q : Nat → Nat) (k : Nat) : Nat := (3 * p k + 9 * p (k + 1) + q k + 3 * q (k + 1) + 8) / 16

/-- The edge of the row nearer to p than to q (R178). -/
def bilinearEdge (p q : Nat → Nat) (k : Nat) : Nat := (3 * p k + q k + 2) / 4

theorem doubledPair_eq_edgedPairs (p q : Nat → Nat) (n : Nat) :
    doubledPair p q n = edgedPairs (bilinearEdge p q) (bilinearEven p q) (bilinearOdd p q) n := rfl

section
variable {t u : Reader} {p q : Nat → Nat} {n : Nat}

theorem up2BilinearCore_ok (ht : Reads t p n) (hu : Reads u q n) {k o : Nat} {d e : Row} (hk : k + 1 ≤ n ∨ k = 0)
    (hd : o + 2 * k ≤ d.length) (he : o + 2 * k ≤ e.length) :
    up2BilinearCore t u k (d, e) o =
      .ok (withPairs o k (bilinearEven p q) (bilinearOdd p q) d,
        withPairs o k (bilinearEven q p) (bilinearOdd q p) e) := by
  induction k with
  | zero => rw [withPairs_zero, withPairs_zero, up2BilinearCore]
  | succ k ih =>
    rw [← set_withPairs, ← set_withPairs]
    refine bind_eq_of_ok (ih (by omega) (by omega) (by omega)) <|
      ht.bind_eq k <| ht.bind_eq (k + 1) <| hu.bind_eq k <| hu.bind_eq (k + 1) <|
      bind_eq_of_ok (setAt_ok ?_ ?_) <| bind_eq_of_ok (setAt_ok ?_ ?_) <|
      bind_eq_of_ok (setAt_ok ?_ ?_) <| bind_eq_of_ok (setAt_ok ?_ ?_) rfl <;>
      simp only [List.length_set, length_withPairs, bilinearEven, bilinearOdd, Nat.shiftRight_eq_div_pow] <;> omega

theorem up2Bilinear_ok (hn : 1 ≤ n) (ht : Reads t p ((n + 1) / 2)) (hu : Reads u q ((n + 1) / 2)) :
    up2Bilinear t u n = .ok ((List.range n).map (doubledPair p q n), (List.range n).map (doubledPair q p n)) := by
  rw [doubledPair_eq_edgedPairs, doubledPair_eq_edgedPairs, ← set_edges_withPairs, ← set_edges_withPairs]
  refine ht.bind_eq 0 <| hu.bind_eq 0 <| bind_eq_of_ok (setAt_ok ?_ ?_) <| bind_eq_of_ok (setAt_ok ?_ ?_) <|
    bind_eq_of_ok (up2BilinearCore_ok ht hu (k := (n - 1) / 2) (by omega) ?_ ?_) <|
    ht.bind_eq ((n - 1) / 2) <| hu.bind_eq ((n - 1) / 2) <|
    bind_eq_of_ok (setAt_ok ?_ ?_) <| bind_eq_of_ok (setAt_ok ?_ ?_) rfl <;>
    simp only [List.length_set, List.length_replicate, length_withPairs, bilinearEdge, Nat.shiftRight_eq_div_pow] <;>
    omega

end

/-- Settles O53: as O52, on two rows that are written together. -/
theorem bilinearDoublingKernels : Obligations.BilinearDoublingKernels := by
  unfold Obligations.BilinearDoublingKernels
  intro sw s t st
  refine ⟨fun p o d e hp hd he => ?_, fun n hn hs ht => ?_⟩
  · have hs : Reads (listRow s) (sampleOf s) (min s.length t.length) := reads_listRow (Nat.min_le_left ..)
    have ht : Reads (listRow t) (sampleOf t) (min s.length t.length) := reads_listRow (Nat.min_le_right ..)
    exact answerRowPair_of_ok (up2BilinearCore_ok hs ht (by omega) hd he) st
  · exact answerRowPair_of_ok (up2Bilinear_ok hn (reads_listRow hs) (reads_listRow ht)) st

end Sys2Proof.Proofs.DoublingKernels

/-! PROOFS. The column kernels on coordinates inside the row (R180 to R183), and the kernels that are one formula (R160,
R184, R187). -/

namespace Sys2Proof.Proofs.ColumnKernels

open Sys2Proof Sys2Proof.Machine Sys2Proof.Proofs.KernelAnswers Sys2Proof.Proofs.RowKernels

/-! ### The column kernels (R180 to R183) -/

theorem listRow_eq_sampleOf {s : Row} {c : Int} (h0 : 0 ≤ c) (hc : c < s.length) :
    listRow s c = .ok (sampleOf s c.toNat) := (reads_listRow le_rfl).at c.toNat

/-- The weight of the right neighbour at a 16.16 coordinate, of 128 or of 65536 (R182, R183). -/
def blendWeight (bl : Blend8) (x : Int) : Int :=
  match bl with
  | .bits7 => x % 65536 / 512
  | .bits16 => x % 65536

section
variable {t : Reader} {p : Int → Nat} {n : Nat} {x dx : Int}

theorem colsPoint_ok (ht : ∀ j : Nat, j < n → t ((x + j * dx) / 65536) = .ok (p ((x + j * dx) / 65536))) :
    colsPoint t n x dx = .ok ((List.range n).map fun j : Nat => p ((x + j * dx) / 65536)) :=
  rowOf_ok _ fun j hj => wholePart_eq (x + j * dx) ▸ ht j hj

/-- A zero weight answers the sample itself, without its right neighbour (D12). -/
theorem blendAt_ok {c w : Int} (hleft : t c = .ok (p c)) (hright : w ≠ 0 → t (c + 1) = .ok (p (c + 1))) (k : Nat) :
    blendAt t c w (k + 1) = .ok ((p c : Int) + (w * ((p (c + 1) : Int) - p c) + 2 ^ k) / 2 ^ (k + 1)).toNat := by
  refine bind_eq_of_ok hleft ?_
  by_cases hw : w = 0
  · have hround : (2 : Int) ^ k / 2 ^ (k + 1) = 0 :=
      Int.ediv_eq_zero_of_lt (by positivity) (pow_lt_pow_right₀ (by decide) (Nat.lt_succ_self k))
    rw [if_pos hw, hw, zero_mul, zero_add, hround, add_zero, Int.toNat_natCast]
  · rw [if_neg hw]
    refine bind_eq_of_ok (hright hw) ?_
    rw [Int.shiftRight_eq_div_pow]
    norm_cast

theorem colsBlend8_ok (bl : Blend8)
    (hleft : ∀ j : Nat, j < n → t ((x + j * dx) / 65536) = .ok (p ((x + j * dx) / 65536)))
    (hright : ∀ j : Nat, j < n → blendWeight bl (x + j * dx) ≠ 0 →
      t ((x + j * dx) / 65536 + 1) = .ok (p ((x + j * dx) / 65536 + 1))) :
    colsBlend8 bl t n x dx = .ok ((List.range n).map fun j : Nat => blended bl p (x + j * dx)) := by
  refine rowOf_ok _ fun j hj => ?_
  cases bl with
  | bits7 =>
    have hw : fracPart (x + j * dx) >>> (9 : Nat) = (x + j * dx) % 65536 / 512 := Int.shiftRight_eq_div_pow _ 9
    change blendAt t (wholePart (x + j * dx)) (fracPart (x + j * dx) >>> (9 : Nat)) 7 = _
    rw [wholePart_eq, hw]
    exact blendAt_ok (hleft j hj) (hright j hj) 6
  | bits16 =>
    change blendAt t (wholePart (x + j * dx)) (fracPart (x + j * dx)) 16 = _
    rw [wholePart_eq]
    exact blendAt_ok (hleft j hj) (hright j hj) 15

end

/-- Settles O54: the two blends are one kernel with the weight of BLEND8. -/
theorem columnKernels : Obligations.ColumnKernels := by
  unfold Obligations.ColumnKernels
  intro sw s n x dx st at16 px hin
  have hleft : ∀ j : Nat, j < n → listRow s (at16 j / 65536) = .ok (px (at16 j / 65536)) := fun j hj => by
    obtain ⟨h0, h1⟩ := hin j hj
    exact listRow_eq_sampleOf (by omega) h1
  have hright {bl : Blend8}
      (h : ∀ j, j < n → blendWeight bl (at16 j) ≠ 0 → at16 j / 65536 + 1 < s.length) :
      ∀ j : Nat, j < n → blendWeight bl (at16 j) ≠ 0 →
        listRow s (at16 j / 65536 + 1) = .ok (px (at16 j / 65536 + 1)) := fun j hj hw => by
    obtain ⟨h0, _⟩ := hin j hj
    exact listRow_eq_sampleOf (by omega) (h j hj hw)
  have hweight {bl : Blend8} {x : Int} (h : blendWeight bl x ≠ 0) : x % 65536 ≠ 0 := by
    cases bl <;> simp only [blendWeight] at h <;> omega
  refine ⟨?_, fun hnext => ⟨?_, ?_⟩, fun hbl hnext => ?_⟩
  · exact answerRow_of_ok (colsPoint_ok hleft) st
  · exact answerRow_of_ok (colsBlend8_ok .bits16 hleft (hright hnext)) st
  · exact answerRow_of_ok (colsBlend8_ok _ hleft (hright fun j hj hw => hnext j hj (hweight hw))) st
  · rw [← hbl]
    exact answerRow_of_ok (colsBlend8_ok _ hleft (hright (hbl ▸ hnext))) st

/-! ### The arithmetic kernels (R160, R184, R187) -/

theorem narrow_eq (v scale : Nat) : narrow v scale = min 255 (v * scale / 65536) := by
  rw [narrow, Nat.shiftRight_eq_div_pow]

/-- A zero fraction answers the first row, without the second. -/
theorem interp_ok {t u : Reader} {p q : Nat → Nat} {n f8 : Nat} (ht : Reads t p n) (hu : f8 ≠ 0 → Reads u q n) :
    interp t u n f8 = .ok ((List.range n).map fun i => interpolated (p i) (q i) f8) := by
  refine rowOf_ok _ fun i hi => ht.bind_eq i ?_
  by_cases hf : f8 = 0
  · rw [if_pos hf, interpolated, hf]
    exact congrArg _ (by omega)
  · rw [if_neg hf]
    exact (hu hf).bind_eq i (congrArg _ (Nat.shiftRight_eq_div_pow _ 8))

/-- The rounding constant of BOX_ROUND (R187). -/
def boxRounding (br : BoxRound) : Nat := if br = .nearest then 32768 else 0

theorem boxDiv_w8 (br : BoxRound) (sum sc : Nat) :
    boxDiv br .w8 sum sc = (sum * sc + boxRounding br) / 65536 % 256 := by
  cases br <;> exact congrArg (· % 256) (Nat.shiftRight_eq_div_pow _ 16)

theorem boxDiv_w16 (br : BoxRound) (sum sc : Nat) :
    boxDiv br .w16 sum sc = (sum % 4294967296 * sc + boxRounding br) % 4294967296 / 65536 % 65536 := by
  cases br <;> exact congrArg (· % 65536) (Nat.shiftRight_eq_div_pow _ 16)

/-- Settles O55: the shifts of the three kernels as divisions. -/
theorem arithmeticKernels : Obligations.ArithmeticKernels := by
  unfold Obligations.ArithmeticKernels
  intro sw s t n v scale sum sc f8 st
  refine ⟨?_, fun hs ht => ?_, ?_, ?_⟩
  · rw [← narrow_eq]
    rfl
  · refine answerRow_of_ok (interp_ok (reads_listRow hs) fun hf => reads_listRow (ht.resolve_right ?_)) st
    rintro rfl
    exact hf rfl
  · rw [← boxRounding, ← boxDiv_w8]
    rfl
  · rw [← boxRounding, ← boxDiv_w16]
    rfl

end Sys2Proof.Proofs.ColumnKernels

/-! PROOFS. The box accumulator (R185, R186): what K.ADDROW adds, and the first column, the width and the reciprocal of
each box of K.ADDCOLS, for every step. -/

namespace Sys2Proof.Proofs.BoxKernels

open Sys2Proof Sys2Proof.Machine Sys2Proof.Proofs.KernelAnswers Sys2Proof.Proofs.BoxEquivalences
  Sys2Proof.Proofs.RowKernels

/-! ### K.ADDROW (R185) -/

theorem wrapAcc_eq_mod (sw : SampleWidth) (v : Nat) :
    wrapAcc sw v = v % (if sw = .w8 then 65536 else 4294967296) := by cases sw <;> rfl

theorem addRow_head_ok {sw : SampleWidth} {t : Reader} {p : Nat → Nat} {acc : Row} {w : Nat} (ht : Reads t p w)
    (hacc : w ≤ acc.length) :
    addRow sw t acc w = .ok ((List.range acc.length).map fun i =>
      if i < w then wrapAcc sw (sampleOf acc i + p i) else sampleOf acc i) := by
  refine bind_eq_of_ok (rowOf_ok (fun i => wrapAcc sw (sampleOf acc i + p i)) fun i _ =>
    (reads_listRow hacc).bind_eq i <| ht.bind_eq i rfl) (congrArg _ ?_)
  have hlen : w + (acc.length - w) = acc.length := by omega
  refine List.ext_getElem (by simpa using hlen) fun i _ hi => ?_
  simp only [List.length_map, List.length_range] at hi
  simp only [List.getElem_append, List.length_map, List.length_range, List.getElem_map, List.getElem_range,
    List.getElem_drop]
  split
  · rfl
  · rw [sampleOf, List.getD_eq_getElem _ _ hi]
    congr 1
    omega

/-! ### K.ADDCOLS (R186) -/

/-- The first column of box j: the column of its coordinate for a fractional step, side by side for an integer one. -/
def boxFirst (x dx : Int) (j : Nat) : Int :=
  if dx % 65536 = 0 then x / 65536 + j * max 1 (dx / 65536) else (x + j * dx) / 65536

/-- The width of box j, at least one column (R12). -/
def boxWidth (x dx : Int) (j : Nat) : Nat :=
  min1 (if dx % 65536 = 0 then dx / 65536 else (x + (j + 1 : Nat) * dx) / 65536 - (x + j * dx) / 65536)

/-- The reciprocal of box j, none where the rule gives none (log 22). -/
def boxReciprocal (x dx : Int) (bh j : Nat) : Option Nat :=
  if dx % 65536 = 0 then reciprocal (boxWidth x dx j) bh
  else tableEntry (dx / 65536) (boxWidth x dx j - dx / 65536) bh

theorem min1_eq_max_toNat (v : Int) : min1 v = max 1 v.toNat := by
  unfold min1
  omega

theorem boxWidth_pos (x dx : Int) (j : Nat) : 1 ≤ boxWidth x dx j := by
  unfold boxWidth min1
  omega

theorem map_add_range_eq_range' (c k : Nat) : (List.range k).map (c + ·) = List.range' c k :=
  List.range'_eq_map_range.symm

theorem listRow_sumRun_ok {acc : Row} {c : Int} {k : Nat} (h0 : 0 ≤ c) (hk : c + k ≤ acc.length) :
    sumRun (listRow acc) c k = .ok (sumAt (sampleOf acc) (List.range' c.toNat k)) :=
  (reads_listRow le_rfl).sumRun c.toNat k

/-- K.ADDCOLS on boxes inside the accumulator row. -/
theorem addCols_ok {sw : SampleWidth} {acc : Row} {n : Nat} {x dx : Int} (br : BoxRound) (bh : Nat)
    (h : ∀ j < n, 0 ≤ boxFirst x dx j ∧ boxFirst x dx j + boxWidth x dx j ≤ acc.length) :
    addCols br sw acc bh n x dx = .ok ((List.range n).map fun j =>
      boxSample br sw (sumAt (sampleOf acc) (List.range' (boxFirst x dx j).toNat (boxWidth x dx j)))
        (boxReciprocal x dx bh j) bh dx j) := by
  have hsum {j : Nat} (hj : j < n) := listRow_sumRun_ok (h j hj).1 (h j hj).2
  by_cases hdx : dx % 65536 = 0
  · rw [addCols, if_neg (show ¬ fracPart dx ≠ 0 from not_not_intro hdx)]
    simp only [boxFirst, boxWidth, boxReciprocal, if_pos hdx] at hsum ⊢
    refine rowOf_ok _ fun j hj => ?_
    rw [wholePart_eq, wholePart_eq, min1_eq]
    exact bind_eq_of_ok (hsum hj) rfl
  · rw [addCols, if_pos (show fracPart dx ≠ 0 from hdx)]
    simp only [boxFirst, boxWidth, boxReciprocal, if_neg hdx] at hsum ⊢
    refine rowOf_ok _ fun j hj => ?_
    rw [wholePart_eq, wholePart_eq, wholePart_eq]
    exact bind_eq_of_ok (hsum hj) rfl

theorem wholeStep_column {dx : Int} (hdx : dx % 65536 = 0) (x : Int) (j : Nat) :
    (x + j * dx) / 65536 = x / 65536 + j * (dx / 65536) := by
  obtain ⟨q, rfl⟩ := Int.dvd_of_emod_eq_zero hdx
  rw [Int.mul_ediv_cancel_left _ (by decide), show x + (j : Int) * (65536 * q) = x + j * q * 65536 by ring,
    Int.add_mul_ediv_right _ _ (by decide)]

/-- For an integer step too, a box reaches to the column of the next coordinate. -/
theorem boxWidth_eq (x dx : Int) (j : Nat) :
    boxWidth x dx j = min1 ((x + (j + 1 : Nat) * dx) / 65536 - (x + j * dx) / 65536) := by
  unfold boxWidth
  split
  case isTrue hwhole =>
    rw [wholeStep_column hwhole, wholeStep_column hwhole]
    congr 1
    push_cast
    ring
  case isFalse => rfl

/-- The table holds the reciprocals of the two widths that it is asked for. -/
theorem tableEntry_eq_reciprocal {m : Int} {bw : Nat} (hpos : 1 ≤ bw) (hbw : (bw : Int) = m ∨ (bw : Int) = m + 1)
    (bh : Nat) : tableEntry m (bw - m) bh = reciprocal bw bh := by
  have hmin : min1 bw = bw := min1_natCast hpos
  unfold tableEntry
  rcases hbw with hbw | hbw
  · rw [if_pos (by omega), ← hbw, hmin]
  · rw [if_neg (by omega), if_pos (by omega), ← hbw, hmin]

section
variable {br : BoxRound} {sw : SampleWidth} {acc : Row} {bh n : Nat} {x dx : Int}

theorem boxFirst_of_pos (hdx : 0 < dx) (j : Nat) : boxFirst x dx j = (x + j * dx) / 65536 := by
  unfold boxFirst
  split
  case isTrue hwhole => rw [wholeStep_column hwhole, max_eq_right (by omega)]
  case isFalse => rfl

theorem boxReciprocal_of_pos (hdx : 0 < dx) (hbh : 1 ≤ bh) (j : Nat) :
    boxReciprocal x dx bh j = some (65536 / (boxWidth x dx j * bh)) := by
  rw [← reciprocal_of_pos (boxWidth_pos x dx j) hbh, boxReciprocal]
  split
  case isTrue => rfl
  case isFalse =>
    refine tableEntry_eq_reciprocal (boxWidth_pos x dx j) ?_ bh
    have hnext : x + (j + 1 : Nat) * dx = x + j * dx + dx := by
      push_cast
      ring
    rw [boxWidth_eq, hnext, min1_eq]
    omega

/-- A positive step gives every box the column of its coordinate and the reciprocal of its own area. -/
theorem addCols_pos_ok (hdx : 0 < dx) (hbh : 1 ≤ bh) (hx : 0 ≤ x)
    (hin : ∀ j < n, (x + (j : Int) * dx) / 65536 + boxWidth x dx j ≤ acc.length) :
    addCols br sw acc bh n x dx = .ok ((List.range n).map fun j : Nat =>
      boxDiv br sw (sumAt (sampleOf acc) (List.range' ((x + (j : Int) * dx) / 65536).toNat (boxWidth x dx j)))
        (65536 / (boxWidth x dx j * bh))) := by
  have hinside : ∀ j < n, 0 ≤ boxFirst x dx j ∧ boxFirst x dx j + boxWidth x dx j ≤ acc.length := fun j hj => by
    rw [boxFirst_of_pos hdx]
    exact ⟨Int.ediv_nonneg (by positivity) (by decide), hin j hj⟩
  simpa only [boxReciprocal_of_pos hdx hbh, boxFirst_of_pos hdx, boxSample] using addCols_ok br bh hinside

/-- An integer step that is not positive walks the row one column at a time (log 22). -/
theorem addCols_whole_nonpos_ok (hdx : dx ≤ 0) (hwhole : dx % 65536 = 0) (hbh : 1 ≤ bh)
    (hin : ∀ j < n, 0 ≤ x / 65536 + (j : Int) ∧ x / 65536 + (j : Int) < acc.length) :
    addCols br sw acc bh n x dx = .ok ((List.range n).map fun j : Nat =>
      boxDiv br sw (sampleOf acc (x / 65536 + (j : Int)).toNat) (65536 / bh)) := by
  have hfirst (j : Nat) : boxFirst x dx j = x / 65536 + j := by
    rw [boxFirst, if_pos hwhole, max_eq_left (by omega), mul_one]
  have hwidth (j : Nat) : boxWidth x dx j = 1 := by
    rw [boxWidth, if_pos hwhole, min1]
    omega
  have hrecip (j : Nat) : boxReciprocal x dx bh j = some (65536 / bh) := by
    rw [boxReciprocal, if_pos hwhole, hwidth, reciprocal_of_pos le_rfl hbh, Nat.one_mul]
  have hinside : ∀ j < n, 0 ≤ boxFirst x dx j ∧ boxFirst x dx j + boxWidth x dx j ≤ acc.length := fun j hj => by
    have := hin j hj
    rw [hfirst, hwidth]
    omega
  simpa only [hfirst, hwidth, hrecip, boxSample, List.range'_one, sumAt, List.map_cons, List.map_nil,
    List.sum_singleton] using addCols_ok br bh hinside

/-- On boxes inside the row K.ADDCOLS answers n samples of the width, whatever the reciprocals (log 22). -/
theorem addCols_answers_samples
    (h : ∀ j < n, 0 ≤ boxFirst x dx j ∧ boxFirst x dx j + boxWidth x dx j ≤ acc.length) :
    ∃ d, addCols br sw acc bh n x dx = .ok d ∧ d.length = n ∧ rowOk sw d = true := by
  refine ⟨_, addCols_ok br bh h, by rw [List.length_map, List.length_range], (rowOk_iff_atMost _ _).2 fun v hv => ?_⟩
  obtain ⟨j, _, rfl⟩ := List.mem_map.1 hv
  exact boxSample_le_maxSample ..

end

/-- Settles O56: K.ADDROW entry by entry, K.ADDCOLS by its boxes, whose reciprocal exists on the operand domain. -/
theorem boxAccumulateKernels : Obligations.BoxAccumulateKernels := by
  unfold Obligations.BoxAccumulateKernels
  intro sw s acc w bh n x dx st
  refine ⟨fun hs hacc => ?_, ?_, fun hbh hdx hwhole hin => ?_, ?_⟩
  · simp only [← wrapAcc_eq_mod]
    exact answerRow_of_ok (addRow_head_ok (reads_listRow hs) hacc) st
  · intro x0 bw hbh hdx hx hin
    have hbw : bw = boxWidth x dx := funext fun j => by rw [boxWidth_eq, min1_eq_max_toNat]
    simp only [map_add_range_eq_range', hbw] at hin ⊢
    exact answerRow_of_ok (addCols_pos_ok hdx hbh hx hin) st
  · exact answerRow_of_ok (addCols_whole_nonpos_ok hdx hwhole hbh hin) st
  · intro width first _ hin
    have hwidth (j : Nat) : (boxWidth x dx j : Int) = width j := by
      rw [boxWidth, min1_eq]
      exact apply_ite ..
    have hfirst (j : Nat) : boxFirst x dx j = first j := by
      by_cases hdx : dx % 65536 = 0 <;> simp only [boxFirst, first, width, hdx, if_true, if_false]
    simp only [← hfirst, ← hwidth] at hin
    obtain ⟨d, hd, hlen, hok⟩ := addCols_answers_samples (br := st.cfg.boxRound) (sw := sw) (bh := bh) hin
    exact ⟨d, hlen, hok, answerRow_of_ok hd st⟩

end Sys2Proof.Proofs.BoxKernels

/-! PROOFS. The reads of a running path (R64, R106 to R113): the coordinates of its ScaleStep stay inside the source, for a
mirrored source too, and inside the source a read answers the sample. -/

namespace Sys2Proof.Proofs.PathCoordinates

open Sys2Proof Sys2Proof.Machine Sys2Proof.Proofs.KernelAnswers Sys2Proof.Proofs.FixedPoint
  Sys2Proof.Proofs.RunningPaths Sys2Proof.Proofs.RowKernels

/-! ### The coordinates of a plane's step (R112, R113) -/

/-- The ScaleStep of a plane in a mode (R106). -/
def planeStep (pl : Planes) (m : FilterMode) : ScaleStep :=
  scaleSlope pl.srcW.toInt (srcHeight pl) pl.dstW.toInt pl.dstH.toInt m

/-- The step of the plane as if it were not mirrored (R107, R109). -/
def forwardStep (pl : Planes) (m : FilterMode) : ScaleStep :=
  modeSlope (srcWidth pl) (srcHeight pl) (edgeCase (srcWidth pl) (dstWidth pl)) (edgeCase (srcHeight pl) (dstHeight pl)) m

theorem coordinate_nonneg {start step n bound j : Int} (h : StaysWithin start step n bound) (hj : 0 ≤ j) :
    0 ≤ start + j * step :=
  Int.add_nonneg h.start_nonneg (Int.mul_nonneg hj h.step_nonneg)

section
variable {pl : Planes} (hsizes : LegalSizes pl) (m : FilterMode)
include hsizes

theorem planeStep_eq : planeStep pl m = forwardStep pl m ∨
    planeStep pl m = mirrorStep (edgeCase (srcWidth pl) (dstWidth pl)) (forwardStep pl m) := by
  have hw : 1 ≤ (srcWidth pl : Int) := by exact_mod_cast hsizes.srcWidth_pos
  have hsign : pl.srcW.toInt = srcWidth pl ∨ pl.srcW.toInt = -(srcWidth pl : Int) := by
    unfold srcWidth
    omega
  rw [planeStep, hsizes.dstWidth_eq, hsizes.dstHeight_eq]
  rcases hsign with h | h <;> rw [h]
  · exact .inl (scaleSlope_of_pos hw ..)
  · rw [scaleSlope_neg hw, scaleSlope_of_pos hw]
    exact .inr rfl

theorem legalAxis_columns : LegalAxis (srcWidth pl) (edgeCase (srcWidth pl) (dstWidth pl)) := by
  obtain ⟨hw, hw', -, -, -, hd, hd', -, -, -⟩ := hsizes
  exact legalAxis_edgeCase (by omega) (by omega) (by omega) (by omega)

theorem legalAxis_rows : LegalAxis (srcHeight pl) (edgeCase (srcHeight pl) (dstHeight pl)) := by
  obtain ⟨-, -, hh, hh', -, -, -, -, hd, hd'⟩ := hsizes
  exact legalAxis_edgeCase (by omega) (by omega) (by omega) (by omega)

/-- The vertical axis of a step knows no horizontal mirror (R113). -/
theorem planeStep_rows : (planeStep pl m).y = (forwardStep pl m).y ∧ (planeStep pl m).dy = (forwardStep pl m).dy := by
  rcases planeStep_eq hsizes m with h | h <;> rw [h] <;> exact ⟨rfl, rfl⟩

theorem rows_stay : StaysWithin (planeStep pl m).y (planeStep pl m).dy (dstHeight pl) (srcHeight pl * 65536 - 1) := by
  obtain ⟨hy, hdy⟩ := planeStep_rows hsizes m
  rw [hy, hdy]
  exact (modeSlope_rows (legalAxis_rows hsizes) m).mono (le_edgeCase ..) le_rfl

/-- Bilinear does not pass the last row (R112). -/
theorem rows_stay_bilinear : StaysWithin (planeStep pl .bilinear).y (planeStep pl .bilinear).dy (dstHeight pl)
    ((srcHeight pl - 1) * 65536) := by
  obtain ⟨hy, hdy⟩ := planeStep_rows hsizes .bilinear
  rw [hy, hdy]
  exact (modeSlope_rows_bilinear (legalAxis_rows hsizes)).mono (le_edgeCase ..) le_rfl

/-- A mirrored source walks the columns of the unmirrored one backwards (R113). -/
theorem column_bounds_of_forward {bound : Int} (hforward : StaysWithin (forwardStep pl m).x (forwardStep pl m).dx
    (edgeCase (srcWidth pl) (dstWidth pl)) bound) {c : Nat} (hc : c < dstWidth pl) :
    0 ≤ (planeStep pl m).x + c * (planeStep pl m).dx ∧ (planeStep pl m).x + c * (planeStep pl m).dx ≤ bound := by
  have hle := le_edgeCase (srcWidth pl) (dstWidth pl)
  rcases planeStep_eq hsizes m with h | h <;> rw [h]
  · exact ⟨coordinate_nonneg hforward (by omega), hforward.le_bound c (by omega) (by omega)⟩
  · rw [mirrorStep_column]
    exact ⟨coordinate_nonneg hforward (by omega), hforward.le_bound _ (by omega) (by omega)⟩

theorem column_bounds {c : Nat} (hc : c < dstWidth pl) :
    0 ≤ (planeStep pl m).x + c * (planeStep pl m).dx ∧
      (planeStep pl m).x + c * (planeStep pl m).dx ≤ srcWidth pl * 65536 - 1 :=
  column_bounds_of_forward hsizes m (modeSlope_columns (legalAxis_columns hsizes) m) hc

/-- The filtered modes do not pass the last column (R112). -/
theorem column_bounds_filtered (hm : m = .bilinear ∨ m = .linear) {c : Nat} (hc : c < dstWidth pl) :
    0 ≤ (planeStep pl m).x + c * (planeStep pl m).dx ∧
      (planeStep pl m).x + c * (planeStep pl m).dx ≤ (srcWidth pl - 1) * 65536 :=
  column_bounds_of_forward hsizes m (modeSlope_columns_filtered (legalAxis_columns hsizes) hm) hc

end

/-! ### Reads at integer coordinates (R64) -/

section
variable {op : ScaleOp} {pl : Planes} {m : FilterMode} {s : State}

theorem jobRow_ok_of_inside {r c : Int} (hr : 0 ≤ r) (hr' : r < srcHeight pl) (hc : 0 ≤ c) (hc' : c < srcWidth pl) :
    jobRow (pathJob op pl m s) r c = .ok (srcSample op pl s.mem r c) := by
  lift r to Nat using hr
  lift c to Nat using hc
  exact jobRow_ok op m s (by omega) (by omega)

/-- A source row holds its whole width. -/
theorem reads_jobRow {r : Int} (hr : 0 ≤ r) (hr' : r < srcHeight pl) :
    Reads (jobRow (pathJob op pl m s) r) (fun c => srcSample op pl s.mem r c) (srcWidth pl) :=
  fun c hc => jobRow_ok_of_inside hr hr' (by omega) (by omega)

/-- The case of a row given as a count. -/
theorem reads_row {r : Nat} (hr : r < srcHeight pl) :
    Reads (jobRow (pathJob op pl m s) r) (fun c => srcSample op pl s.mem r c) (srcWidth pl) :=
  reads_jobRow (by omega) (by omega)

end

end Sys2Proof.Proofs.PathCoordinates

/-! PROOFS. The paths that compute no coordinates but the ratio of their sizes: COPY (R210, R69) and the exact downscale
ratios (R216 to R223), row by row from the kernels' lemmas. -/

namespace Sys2Proof.Proofs.ExactRatioPaths

open Sys2Proof Sys2Proof.Machine Sys2Proof.Proofs.RunningPaths Sys2Proof.Proofs.PathEquivalences
  Sys2Proof.Proofs.RowKernels Sys2Proof.Proofs.PathCoordinates

/-! ### COPY (R210, R69) -/

section
variable {op : ScaleOp} {pl : Planes} {m : FilterMode} {s : State}

theorem postCheck_copy_samePlane (cfg : Config) (hop : op ≠ .scale16to8) (hsrc : 0 < pl.srcH.toInt)
    (hbase : pl.srcBase = pl.dstBase) (hstride : pl.srcStride = pl.dstStride) :
    postCheck cfg op pl .copy = .shortCircuit := by
  have hcopy : copyShortCircuit op pl .copy = true := by simp [copyShortCircuit, hop, hsrc, hbase, hstride]
  rw [postCheck, if_neg (by simp), if_pos hcopy]

theorem execPath_shortCircuit {p : PathCode} (hready : pathReady p op pl m s.cfg = true)
    (hpost : postCheck s.cfg op pl p = .shortCircuit) :
    execPath p op pl m s = .next { s with path := some p } := by
  rw [execPath, if_pos hready, runPath, hpost]
  rfl

/-- COPY's preconditions are the checks before dispatch alone (R314). -/
theorem pathReady_copy {cfg : Config} (hpre : preCheck cfg op pl = none) : pathReady .copy op pl m cfg = true := by
  simp [pathReady, hpre, exactRatio, modeDefined]

end

/-- Settles O25: the rows of COPY are the source's, and identical planes end the call before its rows. -/
theorem copyStoresTheSource : Obligations.CopyStoresTheSource := by
  unfold Obligations.CopyStoresTheSource
  intro op pl m s
  refine ⟨fun hruns hwidth hheight => ?_, fun hpre hop hsrc hbase hstride => ?_⟩
  · exact execPath_stores_noStep hruns rfl (copyRows_ok m hwidth hheight)
  · exact execPath_shortCircuit (pathReady_copy hpre) (postCheck_copy_samePlane s.cfg hop hsrc hbase hstride)

/-! ### DOWN2 and DOWN4 (R216, R218) -/

section
variable (op : ScaleOp) (pl : Planes) (m : FilterMode) (mem : Memory)

/-- The output plane of DOWN2 (R216). -/
def halfPlane (j c : Nat) : Nat :=
  let px : Int → Int → Nat := srcSample op pl mem
  match m with
  | .none => px (2 * j + 1) (2 * c + 1)
  | .linear => (px (2 * j) (2 * c) + px (2 * j) (2 * c + 1) + 1) / 2
  | .bilinear | .box =>
    (px (2 * j) (2 * c) + px (2 * j) (2 * c + 1) + px (2 * j + 1) (2 * c) + px (2 * j + 1) (2 * c + 1) + 2) / 4

/-- The output plane of DOWN4 (R218). -/
def quarterPlane (j c : Nat) : Nat :=
  let px : Int → Int → Nat := srcSample op pl mem
  if m = .none then px (4 * j + 2) (4 * c + 2)
  else (((List.range 4).map fun (r : Nat) => sumAt (fun (k : Nat) => px (4 * j + r) k) ((List.range 4).map (4 * c + ·))).sum + 8)
    / 16

end

section
variable {op : ScaleOp} {pl : Planes} {m : FilterMode} {s : State}

theorem down2Rows_ok (hwidth : srcWidth pl = 2 * dstWidth pl) (hheight : srcHeight pl = 2 * dstHeight pl) :
    down2Rows (pathJob op pl m s) = .ok (planeRows pl (halfPlane op pl m s.mem)) := by
  refine planeOf_ok _ fun j (hj : j < dstHeight pl) => ?_
  have heven : Reads (jobRow (pathJob op pl m s) (2 * j)) _ (2 * dstWidth pl) :=
    hwidth ▸ reads_jobRow (by omega) (by omega)
  have hodd : Reads (jobRow (pathJob op pl m s) (2 * j + 1)) _ (2 * dstWidth pl) :=
    hwidth ▸ reads_jobRow (by omega) (by omega)
  cases m with
  | none => exact_mod_cast down2Point_ok hodd
  | linear => exact_mod_cast down2Linear_ok heven
  | bilinear | box => exact_mod_cast down2Box_mean_ok heven hodd

theorem down4Rows_ok (hwidth : srcWidth pl = 4 * dstWidth pl) (hheight : srcHeight pl = 4 * dstHeight pl) :
    down4Rows (pathJob op pl m s) = .ok (planeRows pl (quarterPlane op pl m s.mem)) := by
  refine planeOf_ok _ fun j (hj : j < dstHeight pl) => ?_
  have hrow {r : Int} (hr : 4 * j ≤ r := by omega) (hr' : r < 4 * j + 4 := by omega) :
      Reads (jobRow (pathJob op pl m s) r) _ (4 * dstWidth pl) :=
    hwidth ▸ reads_jobRow (by omega) (by omega)
  by_cases hm : m = .none
  · unfold quarterPlane
    simp only [if_pos hm]
    refine (if_pos hm).trans ?_
    exact_mod_cast down4Point_ok hrow
  · unfold quarterPlane
    simp only [if_neg hm]
    refine (if_neg hm).trans ((down4Box_mean_ok hrow hrow hrow hrow).trans ?_)
    simp [List.range_succ]

end

/-- Settles O28: each row of the two paths is that of its kernel, on rows inside the source by the ratio. -/
theorem halvesAndQuarters : Obligations.HalvesAndQuarters := by
  unfold Obligations.HalvesAndQuarters
  intro op pl m s px
  refine ⟨fun hruns => ?_, fun hruns => ?_⟩
  · obtain ⟨-, hw, hh⟩ := sizes_of_down2 (legalSizes_of_pathRuns hruns) (exactRatio_of_pathRuns hruns)
    exact execPath_stores_noStep hruns rfl (down2Rows_ok hw hh)
  · obtain ⟨-, hw, hh⟩ := sizes_of_down4 (legalSizes_of_pathRuns hruns) (exactRatio_of_pathRuns hruns)
    exact execPath_stores_noStep hruns rfl (down4Rows_ok hw hh)

/-! ### The rows that a filter takes together (R220, R223) -/

/-- The row that a filter takes beside row a: row b, or under Linear row a again. -/
def besideRow (m : FilterMode) (a b : Nat) : Nat := if m = .linear then a else b

theorem besideRow_lt {m : FilterMode} {a b h : Nat} (ha : a < h) (hb : b < h) : besideRow m a b < h := by
  unfold besideRow
  split <;> assumption

/-! ### DOWN34 (R220) -/

section
variable (op : ScaleOp) (pl : Planes) (m : FilterMode) (mem : Memory)

/-- The output plane of DOWN34 (R220). -/
def threeQuarterPlane (j c : Nat) : Nat :=
  let row : Nat → Nat → Nat := fun r c => srcSample op pl mem r c
  let b := 4 * (j / 3)
  if m = .none then row (threeQuartersPoint j) (threeQuartersPoint c)
  else match j % 3 with
    | 0 => (3 * threeQuarters (row b) c + threeQuarters (row (besideRow m b (b + 1))) c + 2) / 4
    | 1 => (threeQuarters (row (b + 1)) c + threeQuarters (row (besideRow m (b + 1) (b + 2))) c + 1) / 2
    | _ => (3 * threeQuarters (row (b + 3)) c + threeQuarters (row (besideRow m (b + 3) (b + 2))) c + 2) / 4

end

section
variable {op : ScaleOp} {pl : Planes} {m : FilterMode} {s : State}

theorem down34K0_eq (hm : m ≠ .none) (a b : Nat) : down34K0 (pathJob op pl m s) a b =
    down34Box0 (jobRow (pathJob op pl m s) a) (jobRow (pathJob op pl m s) (besideRow m a b)) (dstWidth pl) := by
  cases m
  · exact absurd rfl hm
  all_goals rfl

theorem down34K1_eq (hm : m ≠ .none) (a b : Nat) : down34K1 (pathJob op pl m s) a b =
    down34Box1 (jobRow (pathJob op pl m s) a) (jobRow (pathJob op pl m s) (besideRow m a b)) (dstWidth pl) := by
  cases m
  · exact absurd rfl hm
  all_goals rfl

section
variable {g : Nat} (hsrc : srcWidth pl = 4 * g) (hdst : dstWidth pl = 3 * g)
include hsrc hdst

theorem down34K0_ok (hm : m ≠ .none) {a b : Nat} (ha : a < srcHeight pl) (hb : b < srcHeight pl) :
    down34K0 (pathJob op pl m s) a b = .ok ((List.range (dstWidth pl)).map fun c =>
      (3 * threeQuarters (fun x => srcSample op pl s.mem a x) c +
        threeQuarters (fun x => srcSample op pl s.mem (besideRow m a b) x) c + 2) / 4) := by
  rw [down34K0_eq hm, hdst]
  exact down34Box0_ok (hsrc ▸ reads_row ha) (hsrc ▸ reads_row (besideRow_lt ha hb))

theorem down34K1_ok (hm : m ≠ .none) {a b : Nat} (ha : a < srcHeight pl) (hb : b < srcHeight pl) :
    down34K1 (pathJob op pl m s) a b = .ok ((List.range (dstWidth pl)).map fun c =>
      (threeQuarters (fun x => srcSample op pl s.mem a x) c +
        threeQuarters (fun x => srcSample op pl s.mem (besideRow m a b) x) c + 1) / 2) := by
  rw [down34K1_eq hm, hdst]
  exact down34Box1_ok (hsrc ▸ reads_row ha) (hsrc ▸ reads_row (besideRow_lt ha hb))

theorem down34Rows_filtered_ok (hm : m ≠ .none) (hheight : 4 * dstHeight pl = 3 * srcHeight pl) :
    down34Rows (pathJob op pl m s) = .ok (planeRows pl (threeQuarterPlane op pl m s.mem)) := by
  refine planeOf_ok _ fun j (hj : j < dstHeight pl) => ?_
  have hfull : j / 3 < jobHd (pathJob op pl m s) / 3 := by
    change j / 3 < dstHeight pl / 3
    omega
  have hlt := Nat.mod_lt j (show 0 < 3 by decide)
  have hgroup : 4 * (j / 3) + 3 < srcHeight pl := by omega
  rw [if_pos hfull]
  unfold threeQuarterPlane
  simp only [if_neg hm]
  interval_cases hmod : j % 3
  · exact_mod_cast down34K0_ok hsrc hdst hm (a := 4 * (j / 3)) (b := 4 * (j / 3) + 1) (by omega) (by omega)
  · exact_mod_cast down34K1_ok hsrc hdst hm (a := 4 * (j / 3) + 1) (b := 4 * (j / 3) + 2) (by omega) (by omega)
  · exact_mod_cast down34K0_ok hsrc hdst hm (a := 4 * (j / 3) + 3) (b := 4 * (j / 3) + 2) (by omega) (by omega)

end

theorem down34Rows_ok (hwidth : 4 * dstWidth pl = 3 * srcWidth pl) (hheight : 4 * dstHeight pl = 3 * srcHeight pl) :
    down34Rows (pathJob op pl m s) = .ok (planeRows pl (threeQuarterPlane op pl m s.mem)) := by
  by_cases hm : m = .none
  · subst hm
    exact down34Rows_none_ok hwidth hheight
  · exact down34Rows_filtered_ok (g := srcWidth pl / 4) (by omega) (by omega) hm hheight

end

/-- Settles O29: under None the points of the ratio, otherwise two rows filtered by H and blended. -/
theorem threeQuarterPath : Obligations.ThreeQuarterPath := by
  unfold Obligations.ThreeQuarterPath
  intro op pl m s hruns
  obtain ⟨-, hw, hh⟩ := sizes_of_down34 (legalSizes_of_pathRuns hruns) (exactRatio_of_pathRuns hruns)
  exact execPath_stores_noStep hruns rfl (down34Rows_ok hw hh)

/-! ### DOWN38 (R223) -/

/-- The samples 0, 3, 6 of each group of eight (R171, R223). -/
def threeEighthsPoint (i : Nat) : Nat := 8 * (i / 3) + 3 * (i % 3)

/-- The rows that output row j averages: under Linear its first row alone (R223). -/
def threeEighthsRows (m : FilterMode) (j : Nat) : List Nat :=
  if m = .linear then (threeEighthsColumns j).map fun _ => threeEighthsPoint j else threeEighthsColumns j

/-- The reciprocal of the number of samples of a box (R172, R173). -/
def threeEighthsWeight (j c : Nat) : Nat :=
  if j % 3 = 2 ∧ c % 3 = 2 then 16384 else if j % 3 = 2 ∨ c % 3 = 2 then 10922 else 7281

/-- The output plane of DOWN38 (R223). -/
def threeEighthsPlane (op : ScaleOp) (pl : Planes) (m : FilterMode) (mem : Memory) (j c : Nat) : Nat :=
  let row : Nat → Nat → Nat := fun r c => srcSample op pl mem r c
  if m = .none then row (threeEighthsPoint j) (threeEighthsPoint c)
  else ((threeEighthsRows m j).map fun r => sumAt (row r) (threeEighthsColumns c)).sum * threeEighthsWeight j c / 65536

theorem threeEighthsRows_inside {size dst i : Nat} (hratio : 8 * dst = 3 * size) (hi : i < dst) :
    threeEighthsPoint i + (if i % 3 = 2 then 2 else 3) ≤ size := by
  unfold threeEighthsPoint
  split <;> omega

/-- The first row of a box, and the rows beside it. -/
theorem threeEighthsRows_eq (m : FilterMode) (j : Nat) :
    threeEighthsRows m j =
      if j % 3 = 2 then [threeEighthsPoint j, besideRow m (threeEighthsPoint j) (threeEighthsPoint j + 1)]
      else [threeEighthsPoint j, besideRow m (threeEighthsPoint j) (threeEighthsPoint j + 1),
        besideRow m (threeEighthsPoint j) (threeEighthsPoint j + 2)] := by
  unfold threeEighthsRows threeEighthsColumns threeEighthsPoint besideRow
  have hlt := Nat.mod_lt j (show 0 < 3 by decide)
  interval_cases j % 3 <;> split <;> rfl

section
variable {op : ScaleOp} {pl : Planes} {m : FilterMode} {s : State}

theorem down38K3_eq (hm : m ≠ .none) (a b c : Nat) : down38K3 (pathJob op pl m s) a b c =
    down38Box3 (jobRow (pathJob op pl m s) a) (jobRow (pathJob op pl m s) (besideRow m a b))
      (jobRow (pathJob op pl m s) (besideRow m a c)) (dstWidth pl) := by
  cases m
  · exact absurd rfl hm
  all_goals rfl

theorem down38K2_eq (hm : m ≠ .none) (a b : Nat) : down38K2 (pathJob op pl m s) a b =
    down38Box2 (jobRow (pathJob op pl m s) a) (jobRow (pathJob op pl m s) (besideRow m a b)) (dstWidth pl) := by
  cases m
  · exact absurd rfl hm
  all_goals rfl

/-- Each row of whole groups is K3 or K2 on consecutive rows; R224's remainder rows do not occur. -/
theorem down38Rows_eq (hheight : dstHeight pl % 3 = 0) :
    down38Rows (pathJob op pl m s) = planeOf (pathJob op pl m s) fun j =>
      let a := threeEighthsPoint j
      if j % 3 = 2 then down38K2 (pathJob op pl m s) a (a + 1 : Nat)
      else down38K3 (pathJob op pl m s) a (a + 1 : Nat) (a + 2 : Nat) := by
  refine planeOf_congr fun j (hj : j < dstHeight pl) => ?_
  have hfull : j / 3 < jobHd (pathJob op pl m s) / 3 := by
    change j / 3 < dstHeight pl / 3
    omega
  have hlt := Nat.mod_lt j (show 0 < 3 by decide)
  rw [if_pos hfull]
  unfold threeEighthsPoint
  interval_cases hmod : j % 3 <;> rfl

section
variable {g : Nat} (hsrc : srcWidth pl = 8 * g) (hdst : dstWidth pl = 3 * g)
include hsrc hdst

theorem down38K3_ok (hm : m ≠ .none) {a b c : Nat} (ha : a < srcHeight pl) (hb : b < srcHeight pl)
    (hc : c < srcHeight pl) :
    down38K3 (pathJob op pl m s) a b c = .ok ((List.range (dstWidth pl)).map fun i =>
      (([a, besideRow m a b, besideRow m a c].map fun r : Nat =>
        sumAt (fun x => srcSample op pl s.mem r x) (threeEighthsColumns i)).sum) *
        (if i % 3 = 2 then 10922 else 7281) / 65536) := by
  rw [down38K3_eq hm, hdst]
  simpa [Nat.add_assoc] using down38Box3_ok (hsrc ▸ reads_row (op := op) (m := m) (s := s) ha)
    (hsrc ▸ reads_row (besideRow_lt ha hb)) (hsrc ▸ reads_row (besideRow_lt ha hc))

theorem down38K2_ok (hm : m ≠ .none) {a b : Nat} (ha : a < srcHeight pl) (hb : b < srcHeight pl) :
    down38K2 (pathJob op pl m s) a b = .ok ((List.range (dstWidth pl)).map fun i =>
      (([a, besideRow m a b].map fun r : Nat =>
        sumAt (fun x => srcSample op pl s.mem r x) (threeEighthsColumns i)).sum) *
        (if i % 3 = 2 then 16384 else 10922) / 65536) := by
  rw [down38K2_eq hm, hdst]
  simpa using down38Box2_ok (hsrc ▸ reads_row (op := op) (m := m) (s := s) ha)
    (hsrc ▸ reads_row (besideRow_lt ha hb))

variable (hheight : 8 * dstHeight pl = 3 * srcHeight pl)
include hheight

theorem down38Rows_none_ok :
    down38Rows (pathJob op pl .none s) = .ok (planeRows pl (threeEighthsPlane op pl .none s.mem)) := by
  rw [down38Rows_eq (by omega)]
  refine planeOf_ok _ fun j (hj : j < dstHeight pl) => ?_
  have hrow : threeEighthsPoint j < srcHeight pl := by
    have := threeEighthsRows_inside hheight hj
    split at this <;> omega
  refine (ite_self _).trans ?_
  change down38Point (jobRow (pathJob op pl .none s) (threeEighthsPoint j)) (dstWidth pl) = _
  rw [hdst]
  exact down38Point_ok (hsrc ▸ reads_row hrow)

theorem down38Rows_filtered_ok (hm : m ≠ .none) :
    down38Rows (pathJob op pl m s) = .ok (planeRows pl (threeEighthsPlane op pl m s.mem)) := by
  rw [down38Rows_eq (by omega)]
  refine planeOf_ok _ fun j (hj : j < dstHeight pl) => ?_
  have hrows := threeEighthsRows_inside hheight hj
  unfold threeEighthsPlane threeEighthsWeight
  simp only [if_neg hm, threeEighthsRows_eq]
  by_cases hlast : j % 3 = 2
  · simp only [hlast, true_and, true_or, if_true] at hrows ⊢
    exact down38K2_ok hsrc hdst hm (by omega) (by omega)
  · simp only [hlast, false_and, false_or, if_false] at hrows ⊢
    exact down38K3_ok hsrc hdst hm (by omega) (by omega) (by omega)

end

theorem down38Rows_ok (hwidth : 8 * dstWidth pl = 3 * srcWidth pl) (hheight : 8 * dstHeight pl = 3 * srcHeight pl) :
    down38Rows (pathJob op pl m s) = .ok (planeRows pl (threeEighthsPlane op pl m s.mem)) := by
  have hsrc : srcWidth pl = 8 * (srcWidth pl / 8) := by omega
  have hdst : dstWidth pl = 3 * (srcWidth pl / 8) := by omega
  by_cases hm : m = .none
  · subst hm
    exact down38Rows_none_ok hsrc hdst hheight
  · exact down38Rows_filtered_ok hsrc hdst hheight hm

theorem sizes_of_down38 (hsizes : LegalSizes pl) (h : exactRatio .down38 pl = true) :
    0 < pl.srcW.toInt ∧ 8 * dstWidth pl = 3 * srcWidth pl ∧ 8 * dstHeight pl = 3 * srcHeight pl :=
  sizes_of_ratio (a := 8) (b := 3) hsizes (by decide) (by simpa [exactRatio, ratio38] using h)

end

/-- Settles O30: under None the points of the ratio, otherwise the boxes of the kernels. -/
theorem threeEighthsPath : Obligations.ThreeEighthsPath := by
  unfold Obligations.ThreeEighthsPath
  intro op pl m s hruns
  obtain ⟨-, hw, hh⟩ := sizes_of_down38 (legalSizes_of_pathRuns hruns) (exactRatio_of_pathRuns hruns)
  exact execPath_stores_noStep hruns rfl (down38Rows_ok hw hh)

end Sys2Proof.Proofs.ExactRatioPaths

/-! PROOFS. The paths that walk both axes by a ScaleStep or one axis by its own (R213, R214, R245 to R253): SIMPLE, VERTICAL,
BILINEAR_UP and BILINEAR_DOWN, on coordinates inside the source. -/

namespace Sys2Proof.Proofs.CoordinatePaths

open Sys2Proof Sys2Proof.Machine Sys2Proof.Proofs.KernelAnswers Sys2Proof.Proofs.FixedPoint
  Sys2Proof.Proofs.RunningPaths Sys2Proof.Proofs.RowKernels Sys2Proof.Proofs.ColumnKernels
  Sys2Proof.Proofs.PathCoordinates Sys2Proof.Proofs.BoxEquivalences

/-! ### SIMPLE (R253) -/

/-- The output plane of SIMPLE (R253). -/
def simplePlane (op : ScaleOp) (pl : Planes) (mem : Memory) (j c : Nat) : Nat :=
  let st := planeStep pl .none
  srcSample op pl mem ((st.y + j * st.dy) / 65536) ((st.x + c * st.dx) / 65536)

section
variable {op : ScaleOp} {pl : Planes} {m : FilterMode} {s : State}

theorem simpleRows_ok (hsizes : LegalSizes pl) :
    simpleRows (pathJob op pl m s) (planeStep pl .none) = .ok (planeRows pl (simplePlane op pl s.mem)) := by
  refine planeOf_ok _ fun j (hj : j < dstHeight pl) => ?_
  refine colsPoint_ok (p := srcSample op pl s.mem (((planeStep pl .none).y + j * (planeStep pl .none).dy) / 65536))
    fun c hc => ?_
  have hrows := rows_stay hsizes .none
  have hlo := coordinate_nonneg hrows (Int.natCast_nonneg j)
  have hhi := hrows.le_bound j (by omega) (by omega)
  obtain ⟨hclo, hchi⟩ := column_bounds hsizes .none hc
  rw [wholePart_eq]
  exact jobRow_ok_of_inside (by omega) (by omega) (by omega) (by omega)

end

/-- Settles O26: every coordinate of the None slope lies in the source. -/
theorem simplePicksByCoordinate : Obligations.SimplePicksByCoordinate := by
  unfold Obligations.SimplePicksByCoordinate
  intro op pl m s hruns
  exact execPath_stores hruns (simpleRows_ok (legalSizes_of_pathRuns hruns))

/-! ### Two rows and a fraction (R184) -/

/-- The fraction of a row coordinate that K.INTERP takes (R214, R247, R252). -/
def rowFraction (y : Int) : Nat := (y / 256 % 256).toNat

theorem rowFraction_eq (y : Int) : ((y >>> (8 : Nat)) % 256).toNat = rowFraction y := by
  rw [rowFraction, Int.shiftRight_eq_div_pow]
  rfl

theorem row_inside {y : Int} {h : Nat} (hy : 0 ≤ y) (hy' : y ≤ (h - 1) * 65536) :
    0 ≤ y / 65536 ∧ y / 65536 < h := by omega

/-- A coordinate with a fraction has a next row (R214, R252). -/
theorem nextRow_inside {y : Int} {h : Nat} (hy : 0 ≤ y) (hy' : y ≤ (h - 1) * 65536) (hf : rowFraction y ≠ 0) :
    0 ≤ y / 65536 + 1 ∧ y / 65536 + 1 < h := by
  unfold rowFraction at hf
  omega

section
variable {op : ScaleOp} {pl : Planes} {m : FilterMode} {s : State} {y : Int}

theorem interp_rows_ok (hy : 0 ≤ y) (hy' : y ≤ (srcHeight pl - 1) * 65536) {n f8 : Nat} (hn : n ≤ srcWidth pl)
    (hf : f8 ≠ 0 → rowFraction y ≠ 0) :
    interp (jobRow (pathJob op pl m s) (y / 65536)) (jobRow (pathJob op pl m s) (y / 65536 + 1)) n f8 =
      .ok ((List.range n).map fun c : Nat => interpolated (srcSample op pl s.mem (y / 65536) c)
        (srcSample op pl s.mem (y / 65536 + 1) c) f8) := by
  obtain ⟨hlo, hhi⟩ := row_inside hy hy'
  refine interp_ok ((reads_jobRow hlo hhi).mono hn) fun hf8 => ?_
  obtain ⟨hlo', hhi'⟩ := nextRow_inside hy hy' (hf hf8)
  exact (reads_jobRow hlo' hhi').mono hn

end

/-! ### VERTICAL (R213, R214) -/

/-- The step of VERTICAL but for its overflow (R213). -/
def verticalDelta (h hd : Int) : Int :=
  if hd ≤ h then h * 65536 / hd else if 1 < h then (h * 65536 - 65537) / (hd - 1) else 0

/-- The start of VERTICAL (R213). -/
def verticalStart (h hd : Int) : Int := if hd ≤ h then verticalDelta h hd / 2 - 32768 else 0

theorem verticalStep_eq {h hd : Nat} (hh : 1 ≤ h) (hh' : h ≤ 32768) (hd1 : 1 ≤ hd) (hov : ¬ (h = 32768 ∧ hd = 1)) :
    verticalStep h hd = { x := 0, y := verticalStart h hd, dx := 0, dy := verticalDelta h hd } := by
  unfold verticalStep verticalStart verticalDelta
  by_cases hdown : (hd : Int) ≤ h
  · have hdiv : fixedDiv h hd = h * 65536 / hd := fixedDiv_exact hh' hd1 hov
    have hnonneg : (0 : Int) ≤ h * 65536 / hd := by positivity
    simp only [if_pos hdown, hdiv, centerStart_of_nonneg hnonneg]
    rfl
  · by_cases hone : (1 : Int) < h
    · obtain ⟨hdiv, -, -⟩ := fixedDiv1_upscale (num := h) (den := hd) (by omega) (by omega)
      simp only [if_neg hdown, if_pos hone, if_pos (show 1 < (h : Int) ∧ 1 < (hd : Int) by omega), hdiv]
    · simp only [if_neg hdown, if_neg hone, if_neg (show ¬ (1 < (h : Int) ∧ 1 < (hd : Int)) by omega)]

theorem verticalDelta_nonneg {h hd : Int} (hh : 1 ≤ h) (hd1 : 1 ≤ hd) : 0 ≤ verticalDelta h hd := by
  unfold verticalDelta
  split_ifs
  · exact Int.ediv_nonneg (by omega) (by omega)
  · exact Int.ediv_nonneg (by omega) (by omega)
  · exact le_rfl

theorem verticalStart_nonneg {h hd : Int} (hd1 : 1 ≤ hd) : 0 ≤ verticalStart h hd := by
  unfold verticalStart verticalDelta
  split_ifs with hdown
  · have : 65536 ≤ h * 65536 / hd := (Int.le_ediv_iff_mul_le (by omega)).2 (by omega)
    omega
  · exact le_rfl

theorem verticalMaxY_bounds {pl : Planes} (hsizes : LegalSizes pl) :
    0 ≤ verticalMaxY pl ∧ verticalMaxY pl ≤ (srcHeight pl - 1) * 65536 := by
  have hh := hsizes.srcHeight_pos
  unfold verticalMaxY
  split_ifs <;> omega

/-- The coordinate of output row j (R214). -/
def verticalCoordinate (pl : Planes) (j : Nat) : Int :=
  min (verticalStart (srcHeight pl) (dstHeight pl) + j * verticalDelta (srcHeight pl) (dstHeight pl)) (verticalMaxY pl)

theorem verticalCoordinate_bounds {pl : Planes} (hsizes : LegalSizes pl) (j : Nat) :
    0 ≤ verticalCoordinate pl j ∧ verticalCoordinate pl j ≤ (srcHeight pl - 1) * 65536 := by
  obtain ⟨hmax, hmax'⟩ := verticalMaxY_bounds hsizes
  have hh := hsizes.srcHeight_pos
  have hd1 := hsizes.dstHeight_pos
  have hstart := verticalStart_nonneg (h := srcHeight pl) (hd := dstHeight pl) (by omega)
  have hdelta := verticalDelta_nonneg (h := srcHeight pl) (hd := dstHeight pl) (by omega) (by omega)
  have hsteps := Int.mul_nonneg (Int.natCast_nonneg j) hdelta
  unfold verticalCoordinate
  omega

/-- The output plane of VERTICAL (R214). -/
def verticalPlane (op : ScaleOp) (pl : Planes) (m : FilterMode) (mem : Memory) (j c : Nat) : Nat :=
  let yj := verticalCoordinate pl j
  interpolated (srcSample op pl mem (yj / 65536) c) (srcSample op pl mem (yj / 65536 + 1) c)
    (if m = .bilinear then rowFraction yj else 0)

theorem verticalMaxY_eq_ite (pl : Planes) : verticalMaxY pl =
    if (srcHeight pl : Int) ≤ 1 then 0
    else if pl.dstW = pl.srcW ∧ (dstHeight pl : Int) = srcHeight pl then ((srcHeight pl : Int) - 1) * 65536
    else ((srcHeight pl : Int) - 1) * 65536 - 1 := by
  unfold verticalMaxY ratioOne
  simp only [Bool.and_eq_true, decide_eq_true_eq, Nat.cast_le_one, Nat.cast_inj]
  rfl

section
variable {op : ScaleOp} {pl : Planes} {m : FilterMode} {s : State} (hsizes : LegalSizes pl)
include hsizes

theorem pathStep_vertical_eq (hov : ¬ (srcHeight pl = 32768 ∧ dstHeight pl = 1)) : pathStep pl .vertical m =
    { x := 0, y := verticalStart (srcHeight pl) (dstHeight pl), dx := 0
      dy := verticalDelta (srcHeight pl) (dstHeight pl) } := by
  obtain ⟨-, -, hh, hh', -, -, -, hdst, hd1, -⟩ := hsizes
  change verticalStep (srcHeight pl) pl.dstH.toInt = _
  rw [hdst, verticalStep_eq hh hh' hd1 hov]

theorem verticalRows_ok (hov : ¬ (srcHeight pl = 32768 ∧ dstHeight pl = 1)) (hwidth : dstWidth pl = srcWidth pl) :
    verticalRows (pathJob op pl m s) (pathStep pl .vertical m) = .ok (planeRows pl (verticalPlane op pl m s.mem)) := by
  rw [pathStep_vertical_eq hsizes hov]
  refine planeOf_ok _ fun j _ => ?_
  obtain ⟨hlo, hhi⟩ := verticalCoordinate_bounds hsizes j
  change interp (jobRow _ (wholePart (verticalCoordinate pl j))) (jobRow _ (wholePart (verticalCoordinate pl j) + 1))
    (dstWidth pl) (if m = .bilinear then ((verticalCoordinate pl j >>> (8 : Nat)) % 256).toNat else 0) = _
  rw [wholePart_eq, rowFraction_eq]
  refine interp_rows_ok hlo hhi hwidth.le fun hf => ?_
  split at hf
  · exact hf
  · exact absurd rfl hf

end

/-- Settles O27: the rows of VERTICAL are interpolated between rows of the source. -/
theorem verticalInterpolatesRows : Obligations.VerticalInterpolatesRows := by
  unfold Obligations.VerticalInterpolatesRows
  intro op pl m s hruns hwidth hov h hd dy y maxY out
  have hsizes := legalSizes_of_pathRuns hruns
  have hmax : verticalMaxY pl = maxY := verticalMaxY_eq_ite pl
  have hout : verticalPlane op pl m s.mem = out := by
    unfold verticalPlane verticalCoordinate
    rw [hmax]
    rfl
  have hexec := execPath_stores hruns (verticalRows_ok (op := op) (m := m) (s := s) hsizes hov hwidth)
  rw [hout, pathStep_vertical_eq hsizes hov] at hexec
  exact hexec

/-! ### The horizontal filter (R182, R183) -/

section
variable {op : ScaleOp} {pl : Planes} {m : FilterMode} {s : State}

theorem horizontalFilter_eq (hm : m ≠ .none) (st : ScaleStep) (t : Reader) :
    horizontalFilter (pathJob op pl m s) st t = colsBlend8 (blendOf s.cfg op) t (dstWidth pl) st.x st.dx := by
  refine (if_neg hm).trans ?_
  cases op
  case scale8 => rfl
  all_goals exact colsBlend8_bits16 ..

/-- A coordinate with a weight has a next column (D12). -/
theorem nextColumn_inside {bl : Blend8} {x : Int} {w : Nat} (hx : x ≤ (w - 1) * 65536) (hw : blendWeight bl x ≠ 0) :
    x / 65536 + 1 < w := by
  cases bl <;> simp only [blendWeight] at hw <;> omega

/-- The filtered row, from a row that holds the source's width. -/
theorem horizontalFilter_ok (hsizes : LegalSizes pl) (hm : m = .bilinear ∨ m = .linear) {t : Reader} {p : Int → Nat}
    (ht : ∀ k : Int, 0 ≤ k → k < srcWidth pl → t k = .ok (p k)) :
    horizontalFilter (pathJob op pl m s) (planeStep pl m) t = .ok ((List.range (dstWidth pl)).map fun c : Nat =>
      blended (blendOf s.cfg op) p ((planeStep pl m).x + c * (planeStep pl m).dx)) := by
  rw [horizontalFilter_eq (by rcases hm with rfl | rfl <;> nofun)]
  refine colsBlend8_ok _ (fun c hc => ?_) fun c hc hw => ?_
  · obtain ⟨hlo, hhi⟩ := column_bounds_filtered hsizes m hm hc
    exact ht _ (by omega) (by omega)
  · obtain ⟨hlo, hhi⟩ := column_bounds_filtered hsizes m hm hc
    exact ht _ (by omega) (nextColumn_inside hhi hw)

/-- The filtered source row r. -/
def filteredRow (op : ScaleOp) (pl : Planes) (m : FilterMode) (s : State) (r : Int) (c : Nat) : Nat :=
  blended (blendOf s.cfg op) (fun k => srcSample op pl s.mem r k) ((planeStep pl m).x + c * (planeStep pl m).dx)

theorem horizontalFilter_row_ok (hsizes : LegalSizes pl) (hm : m = .bilinear ∨ m = .linear) {r : Int} (hr : 0 ≤ r)
    (hr' : r < srcHeight pl) :
    horizontalFilter (pathJob op pl m s) (planeStep pl m) (jobRow (pathJob op pl m s) r) =
      .ok ((List.range (dstWidth pl)).map (filteredRow op pl m s r)) :=
  horizontalFilter_ok hsizes hm fun _ hk hk' => jobRow_ok_of_inside hr hr' hk hk'

theorem mode_of_pathRuns {p : PathCode} (hp : p = .bilinearUp ∨ p = .bilinearDown)
    (hruns : pathRuns p op pl m s.cfg = true) : m = .bilinear ∨ m = .linear := by
  obtain ⟨⟨-, -, hmode⟩, -⟩ := pathRuns_iff.1 hruns
  rcases hp with rfl | rfl <;> cases m <;> simp [modeDefined] at hmode ⊢

end

/-! ### BILINEAR_UP (R245, R247) -/

/-- The source row that BILINEAR_UP picks under Linear (R247). -/
def pickedRow (pl : Planes) (m : FilterMode) (j : Nat) : Int :=
  let st := planeStep pl m
  let h : Int := srcHeight pl
  min ((min st.y ((h - 1) * 65536) + j * st.dy) / 65536) (h - 1)

/-- The output plane of BILINEAR_UP (R247). -/
def bilinearUpPlane (op : ScaleOp) (pl : Planes) (m : FilterMode) (s : State) (j c : Nat) : Nat :=
  let yj : Int := j * (planeStep pl m).dy
  if m = .bilinear then
    interpolated (filteredRow op pl m s (yj / 65536) c) (filteredRow op pl m s (yj / 65536 + 1) c) (rowFraction yj)
  else filteredRow op pl m s (pickedRow pl m j) c

section
variable {op : ScaleOp} {pl : Planes} {m : FilterMode} {s : State} (hsizes : LegalSizes pl)
include hsizes

/-- A row blended from two filtered rows is the first of them when the fraction is 0, as the path has it (R247). -/
theorem blendedRows_ok {y : Int} (hy : 0 ≤ y) (hy' : y ≤ (srcHeight pl - 1) * 65536) (hm : m = .bilinear ∨ m = .linear) :
    (do
      let u ← horizontalFilter (pathJob op pl m s) (planeStep pl m) (jobRow (pathJob op pl m s) (y / 65536))
      if rowFraction y = 0 then .ok u
      else do
        let v ← horizontalFilter (pathJob op pl m s) (planeStep pl m) (jobRow (pathJob op pl m s) (y / 65536 + 1))
        interp (listRow u) (listRow v) (dstWidth pl) (rowFraction y)) =
      .ok ((List.range (dstWidth pl)).map fun c =>
        interpolated (filteredRow op pl m s (y / 65536) c) (filteredRow op pl m s (y / 65536 + 1) c) (rowFraction y)) := by
  obtain ⟨hlo, hhi⟩ := row_inside hy hy'
  refine bind_eq_of_ok (horizontalFilter_row_ok hsizes hm hlo hhi) ?_
  by_cases hf : rowFraction y = 0
  · rw [if_pos hf, hf]
    refine congrArg Except.ok (List.map_congr_left fun c _ => ?_)
    rw [interpolated]
    omega
  · obtain ⟨hlo', hhi'⟩ := nextRow_inside hy hy' hf
    rw [if_neg hf]
    refine bind_eq_of_ok (horizontalFilter_row_ok hsizes hm hlo' hhi') ?_
    exact interp_ok (fun _ hc => listRow_map_range hc) fun _ _ hc => listRow_map_range hc

theorem pickedRow_inside (m : FilterMode) (j : Nat) : 0 ≤ pickedRow pl m j ∧ pickedRow pl m j < srcHeight pl := by
  have hh := hsizes.srcHeight_pos
  have hrows := rows_stay hsizes m
  have hstart := hrows.start_nonneg
  have hsteps := Int.mul_nonneg (Int.natCast_nonneg j) hrows.step_nonneg
  simp only [pickedRow]
  omega

theorem bilinearUpRows_ok (hm : m = .bilinear ∨ m = .linear) :
    bilinearUpRows (pathJob op pl m s) (planeStep pl m) = .ok (planeRows pl (bilinearUpPlane op pl m s)) := by
  refine planeOf_ok _ fun j (hj : j < dstHeight pl) => ?_
  unfold bilinearUpPlane
  rcases hm with rfl | rfl
  · have hrows := rows_stay_bilinear hsizes
    have hlast := hrows.le_bound j (by omega) (by omega)
    have hstart := hrows.start_nonneg
    have hsteps := Int.mul_nonneg (Int.natCast_nonneg j) hrows.step_nonneg
    have hblend := blendedRows_ok (op := op) (s := s) hsizes hsteps (by omega) (.inl rfl)
    simp only [← wholePart_eq, ← rowFraction_eq] at hblend ⊢
    exact hblend
  · obtain ⟨hlo, hhi⟩ := pickedRow_inside hsizes .linear j
    simp only [if_neg (show ¬ FilterMode.linear = .bilinear by decide)]
    refine (if_neg (show ¬ FilterMode.linear = .bilinear by decide)).trans ?_
    change horizontalFilter _ _ (jobRow _ (min (wholePart (min (planeStep pl .linear).y ((srcHeight pl - 1) * 2 ^ 16) +
      j * (planeStep pl .linear).dy)) (srcHeight pl - 1))) = _
    rw [wholePart_eq]
    exact horizontalFilter_row_ok hsizes (.inr rfl) hlo hhi

end

/-- Settles O34: the rows that BILINEAR_UP filters lie in the source. -/
theorem bilinearUpBlends : Obligations.BilinearUpBlends := by
  unfold Obligations.BilinearUpBlends
  intro op pl m s hruns _
  exact execPath_stores hruns (bilinearUpRows_ok (legalSizes_of_pathRuns hruns) (mode_of_pathRuns (.inl rfl) hruns))

/-! ### BILINEAR_DOWN (R250, R252) -/

/-- The row coordinate of BILINEAR_DOWN (R252). -/
def downCoordinate (pl : Planes) (m : FilterMode) (j : Nat) : Int :=
  min ((planeStep pl m).y + j * (planeStep pl m).dy) ((srcHeight pl - 1) * 65536)

/-- The unfiltered row that BILINEAR_DOWN takes for output row j: interpolated, or under Linear picked (R252). -/
def downRow (op : ScaleOp) (pl : Planes) (m : FilterMode) (mem : Memory) (j : Nat) (k : Int) : Nat :=
  let yj := downCoordinate pl m j
  if m = .bilinear then
    interpolated (srcSample op pl mem (yj / 65536) k) (srcSample op pl mem (yj / 65536 + 1) k) (rowFraction yj)
  else srcSample op pl mem (yj / 65536) k

/-- The output plane of BILINEAR_DOWN (R252). -/
def bilinearDownPlane (op : ScaleOp) (pl : Planes) (m : FilterMode) (s : State) (j c : Nat) : Nat :=
  blended (blendOf s.cfg op) (downRow op pl m s.mem j) ((planeStep pl m).x + c * (planeStep pl m).dx)

section
variable {op : ScaleOp} {pl : Planes} {m : FilterMode} {s : State} (hsizes : LegalSizes pl)
include hsizes

theorem downCoordinate_bounds (m : FilterMode) (j : Nat) :
    0 ≤ downCoordinate pl m j ∧ downCoordinate pl m j ≤ (srcHeight pl - 1) * 65536 := by
  have hh := hsizes.srcHeight_pos
  have hlo := coordinate_nonneg (rows_stay hsizes m) (Int.natCast_nonneg j)
  unfold downCoordinate
  omega

theorem bilinearDownRows_ok (hm : m = .bilinear ∨ m = .linear) :
    bilinearDownRows (pathJob op pl m s) (planeStep pl m) = .ok (planeRows pl (bilinearDownPlane op pl m s)) := by
  refine planeOf_ok _ fun j _ => ?_
  obtain ⟨hlo, hhi⟩ := downCoordinate_bounds hsizes m j
  obtain ⟨hrow, hrow'⟩ := row_inside hlo hhi
  rcases hm with rfl | rfl
  · change (interp (jobRow _ (wholePart (downCoordinate pl .bilinear j)))
        (jobRow _ (wholePart (downCoordinate pl .bilinear j) + 1)) (srcWidth pl)
        ((downCoordinate pl .bilinear j >>> (8 : Nat)) % 256).toNat >>= fun tmp =>
          horizontalFilter _ _ (listRow tmp)) = _
    rw [wholePart_eq, rowFraction_eq]
    refine bind_eq_of_ok (interp_rows_ok hlo hhi le_rfl id) (horizontalFilter_ok hsizes (.inl rfl) fun k hk hk' => ?_)
    lift k to Nat using hk
    exact listRow_map_range (by omega)
  · refine (if_neg (show ¬ FilterMode.linear = .bilinear by decide)).trans ?_
    change horizontalFilter _ _ (jobRow _ (wholePart (downCoordinate pl .linear j))) = _
    rw [wholePart_eq]
    exact horizontalFilter_row_ok hsizes (.inr rfl) hrow hrow'

end

/-- Settles O35: the row coordinate is cut at the last row, and the columns stay inside the row. -/
theorem bilinearDownBlends : Obligations.BilinearDownBlends := by
  unfold Obligations.BilinearDownBlends
  intro op pl m s hruns
  exact execPath_stores hruns (bilinearDownRows_ok (legalSizes_of_pathRuns hruns) (mode_of_pathRuns (.inr rfl) hruns))

end Sys2Proof.Proofs.CoordinatePaths

/-! PROOFS. BOX at every ratio (R185 to R187, R228, R229): the 16.16 walk of an axis cuts it into boxes inside the source,
and each output sample is the average of the box that the two walks cut. -/

namespace Sys2Proof.Proofs.BoxWalk

open Sys2Proof Sys2Proof.Machine Sys2Proof.Proofs.KernelAnswers Sys2Proof.Proofs.FixedPoint
  Sys2Proof.Proofs.RunningPaths Sys2Proof.Proofs.PathEquivalences Sys2Proof.Proofs.BoxEquivalences
  Sys2Proof.Proofs.RowKernels Sys2Proof.Proofs.BoxKernels Sys2Proof.Proofs.PathCoordinates

/-! ### The walk of one axis (R229, R186) -/

/-- The first sample of box k of an axis, cut at the end of the source (R229). -/
def boxEdge (d : Int) (k : Nat) (size : Int) : Nat := (min (k * d) (size * 65536) / 65536).toNat

/-- The number of samples of box k, at least one (R12). -/
def boxSpan (d : Int) (k : Nat) (size : Int) : Nat := max 1 (boxEdge d (k + 1) size - boxEdge d k size)

/-- The steps of size d that lead to the destination samples of an axis end inside the source. -/
structure Walks (size dst : Nat) (d : Int) : Prop where
  pos : 1 ≤ d
  inside : dst * d ≤ size * 65536

theorem walks_axisStep {size dst : Nat} (hs : 1 ≤ size) (hs' : size ≤ 32768) (hd : 1 ≤ dst) (hd' : dst ≤ 32768) :
    Walks size dst (axisStep size dst) := by
  have haxis : LegalAxis size (edgeCase size dst) :=
    legalAxis_edgeCase (by omega) (by omega) (by omega) (by omega)
  have hpos := haxis.fixedDiv_pos
  have hle : (dst : Int) * axisStep size dst ≤ edgeCase size dst * axisStep size dst :=
    Int.mul_le_mul_of_nonneg_right (le_edgeCase size dst) (by unfold axisStep; omega)
  exact ⟨hpos, hle.trans haxis.mul_fixedDiv_le⟩

section
variable {size dst : Nat} {d : Int} (h : Walks size dst d) {k : Nat}
include h

theorem Walks.step_le (hk : k ≤ dst) : 0 ≤ (k : Int) * d ∧ (k : Int) * d ≤ size * 65536 := by
  have hpos := h.pos
  have hle : (k : Int) * d ≤ dst * d := Int.mul_le_mul_of_nonneg_right (by omega) (by omega)
  exact ⟨by positivity, hle.trans h.inside⟩

/-- The end of the source cuts no box of the walk. -/
theorem Walks.boxEdge_eq (hk : k ≤ dst) : (boxEdge d k size : Int) = k * d / 65536 := by
  obtain ⟨hlo, hhi⟩ := h.step_le hk
  unfold boxEdge
  omega

theorem Walks.boxSpan_eq (hk : k < dst) : boxSpan d k size = min1 ((k + 1 : Nat) * d / 65536 - k * d / 65536) := by
  rw [min1_eq_max_toNat, ← h.boxEdge_eq hk.le, ← h.boxEdge_eq (k := k + 1) hk, boxSpan]
  omega

theorem Walks.boxEdge_add_boxSpan_le (hk : k < dst) : boxEdge d k size + boxSpan d k size ≤ size := by
  have hedge := h.boxEdge_eq hk.le
  have hnext := h.boxEdge_eq (show k + 1 ≤ dst from hk)
  obtain ⟨hlo, -⟩ := h.step_le hk.le
  obtain ⟨-, hhi⟩ := h.step_le (show k + 1 ≤ dst from hk)
  have hpos := h.pos
  have hstep : ((k + 1 : Nat) : Int) * d = k * d + d := by
    push_cast
    ring
  unfold boxSpan
  omega

end

/-! ### The accumulator row (R185, R229) -/

section
variable {op : ScaleOp} {pl : Planes} {s : State}

theorem wrapAcc_add (sw : SampleWidth) (a v : Nat) : wrapAcc sw (wrapAcc sw a + v) = wrapAcc sw (a + v) := by
  cases sw <;> exact Nat.mod_add_mod ..

/-- The accumulator holds the column sums of any number of rows, wrapped to its width. -/
theorem accumulate_wrapped_ok (m : FilterMode) {r k : Nat} (hr : r + k ≤ srcHeight pl) :
    accumulate (pathJob op pl m s) r k =
      .ok ((List.range (srcWidth pl)).map fun c => wrapAcc (sampleWidth op) (columnSum op pl s.mem r k c)) := by
  induction k with
  | zero =>
    refine congrArg Except.ok (List.ext_getElem (by simp [jobW, pathJob]) fun i _ _ => ?_)
    cases op <;> simp [columnSum, sumAt, wrapAcc, sampleWidth]
  | succ k ih =>
    have hread : Reads (jobRow (pathJob op pl m s) ((r : Int) + k)) (fun c => srcSample op pl s.mem (r + k : Nat) c)
        (srcWidth pl) := by exact_mod_cast reads_row (show r + k < srcHeight pl by omega)
    simp only [columnSum, sumAt_range'_succ, ← wrapAcc_add _ (sumAt _ (List.range' r k))]
    exact bind_eq_of_ok (ih (by omega)) (addRow_ok hread)

/-! ### The rows of BOX (R186, R229) -/

theorem sampleOf_map_range {f : Nat → Nat} {n i : Nat} (hi : i < n) : sampleOf ((List.range n).map f) i = f i := by
  simp [sampleOf, hi]

theorem sumAt_congr {p q : Nat → Nat} {cols : List Nat} (h : ∀ i ∈ cols, p i = q i) : sumAt p cols = sumAt q cols :=
  congrArg List.sum (List.map_congr_left h)

/-- K.ADDCOLS on a walk of the row's columns. -/
theorem addCols_walk_ok {br : BoxRound} {sw : SampleWidth} {a : Nat → Nat} {size n bh : Nat} {d : Int}
    (h : Walks size n d) (hbh : 1 ≤ bh) :
    addCols br sw ((List.range size).map a) bh n 0 d = .ok ((List.range n).map fun c =>
      boxDiv br sw (sumAt a (List.range' (boxEdge d c size) (boxSpan d c size))) (65536 / (boxSpan d c size * bh))) := by
  have hspan {c : Nat} (hc : c < n) : boxWidth 0 d c = boxSpan d c size := by
    rw [boxWidth_eq, h.boxSpan_eq hc, zero_add, zero_add]
  rw [addCols_pos_ok h.pos hbh le_rfl fun c hc => ?_]
  · refine congrArg Except.ok (List.map_congr_left fun c hc => ?_)
    rw [List.mem_range] at hc
    have hinside := h.boxEdge_add_boxSpan_le hc
    rw [hspan hc, zero_add, ← h.boxEdge_eq hc.le, Int.toNat_natCast]
    congr 1
    refine sumAt_congr fun i hi => sampleOf_map_range ?_
    rw [List.mem_range'_1] at hi
    omega
  · have hinside := h.boxEdge_add_boxSpan_le hc
    have hedge := h.boxEdge_eq hc.le
    rw [hspan hc, zero_add, List.length_map, List.length_range]
    omega

/-- The output plane of BOX with its step (R229). -/
def averagePlane (br : BoxRound) (op : ScaleOp) (pl : Planes) (mem : Memory) (st : ScaleStep) (j c : Nat) : Nat :=
  let y0 := boxEdge st.dy j (srcHeight pl)
  let bh := boxSpan st.dy j (srcHeight pl)
  let bw := boxSpan st.dx c (srcWidth pl)
  boxDiv br (sampleWidth op) (sumAt (fun k => wrapAcc (sampleWidth op) (columnSum op pl mem y0 bh k))
    (List.range' (boxEdge st.dx c (srcWidth pl)) bw)) (65536 / (bw * bh))

theorem boxRowsFrom_walk_ok (m : FilterMode) {st : ScaleStep} (hx : st.x = 0)
    (hcols : Walks (srcWidth pl) (dstWidth pl) st.dx) (hrows : Walks (srcHeight pl) (dstHeight pl) st.dy) {n j : Nat}
    (hj : j + n ≤ dstHeight pl) :
    boxRowsFrom (pathJob op pl m s) st n j (j * st.dy) = .ok ((List.range' j n).map fun r =>
      (r, (List.range (dstWidth pl)).map (averagePlane s.cfg.boxRound op pl s.mem st r))) := by
  induction n generalizing j with
  | zero => rfl
  | succ n ih =>
    have hlt : j < dstHeight pl := by omega
    obtain ⟨-, hnextle⟩ := hrows.step_le (show j + 1 ≤ dstHeight pl from hlt)
    have hstep : ((j + 1 : Nat) : Int) * st.dy = j * st.dy + st.dy := by
      push_cast
      ring
    have hnext : min ((j : Int) * st.dy + st.dy) ((srcHeight pl : Int) * 2 ^ 16) = (j + 1 : Nat) * st.dy := by omega
    have hbox : min1 (wholePart ((j + 1 : Nat) * st.dy) - wholePart (j * st.dy)) =
        boxSpan st.dy j (srcHeight pl) := by
      rw [wholePart_eq, wholePart_eq, hrows.boxSpan_eq hlt]
    have hacc := accumulate_wrapped_ok (op := op) (s := s) m (hrows.boxEdge_add_boxSpan_le hlt)
    rw [hrows.boxEdge_eq hlt.le, ← wholePart_eq, ← hbox] at hacc
    refine boxRowsFrom_succ_ok hnext hacc ?_ (ih (by omega))
    rw [hbox, hx]
    exact addCols_walk_ok hcols (le_max_left ..)

theorem boxRows_ok (hsizes : LegalSizes pl) (hpos : 0 < pl.srcW.toInt) (m : FilterMode) :
    boxRows (pathJob op pl m s) (pathStep pl .box m) =
      .ok (planeRows pl (averagePlane s.cfg.boxRound op pl s.mem (pathStep pl .box m))) := by
  have hstep := pathStep_box hsizes hpos m
  obtain ⟨hw, hw', hh, hh', -, hdw, hdw', -, hdh, hdh'⟩ := hsizes
  have hrange : List.range (dstHeight pl) = List.range' 0 (dstHeight pl) := List.range_eq_range'
  rw [hstep, planeRows, hrange]
  have hrows := boxRowsFrom_walk_ok (op := op) (s := s) (n := dstHeight pl) (j := 0) m
    (st := { x := 0, y := 0, dx := axisStep (srcWidth pl) (dstWidth pl), dy := axisStep (srcHeight pl) (dstHeight pl) })
    rfl (walks_axisStep hw hw' hdw hdw') (walks_axisStep hh hh' hdh hdh') (Nat.zero_add _).le
  rwa [Nat.cast_zero, zero_mul] at hrows

end

/-- BOX refuses a mirrored source (R228). -/
theorem srcW_pos_of_box {op : ScaleOp} {pl : Planes} {m : FilterMode} {cfg : Config}
    (hruns : pathRuns .box op pl m cfg = true) : 0 < pl.srcW.toInt := by
  obtain ⟨-, hpost⟩ := pathRuns_iff.1 hruns
  obtain ⟨hmirror, -⟩ := postCheck_runs_iff.1 hpost
  have hw := (legalSizes_of_pathRuns hruns).srcWidth_pos
  unfold srcWidth at hw
  have : ¬ pl.srcW.toInt < 0 := fun h => hmirror ⟨rfl, h⟩
  omega

theorem wrapAcc_eq_accBits (op : ScaleOp) (v : Nat) :
    wrapAcc (sampleWidth op) v = v % 2 ^ (if op = .scale8 then 16 else 32) := by
  cases op <;> rfl

/-- Settles O31: the walks of both axes stay inside the source, and the accumulator wraps the sums of its rows. -/
theorem boxAverages : Obligations.BoxAverages := by
  unfold Obligations.BoxAverages
  intro op pl m s hruns st edge accBits out
  have hout : averagePlane s.cfg.boxRound op pl s.mem st = out := by
    funext j c
    simp only [out, averagePlane, columnSum, wrapAcc_eq_accBits, sumAt, ← map_add_range_eq_range', List.map_map]
    rfl
  rw [← hout]
  exact execPath_stores hruns (boxRows_ok (legalSizes_of_pathRuns hruns) (srcW_pos_of_box hruns) m)

end Sys2Proof.Proofs.BoxWalk

/-! PROOFS. What the stores of a path's rows leave in memory, whatever it held before (R62, R212): a byte that a store writes
holds what the stores gave it, and every other byte is kept. -/

namespace Sys2Proof.Proofs.RowStores

open Sys2Proof Sys2Proof.Machine Sys2Proof.Proofs.RunningPaths

/-! ### Operations on memory, byte by byte -/

/-- The operation leaves the byte as it was. -/
def Keeps (g : Memory → Memory) (a : Nat) : Prop := ∀ m, Memory.wf m = true → Memory.read (g m) a = Memory.read m a

/-- The operation gives the byte a value that does not depend on memory. -/
def Determines (g : Memory → Memory) (a : Nat) : Prop := ∃ v, ∀ m, Memory.wf m = true → Memory.read (g m) a = v

/-- The operation keeps the byte or gives it a value. -/
def Settles (g : Memory → Memory) (a : Nat) : Prop := Keeps g a ∨ Determines g a

/-- The operation keeps memory canonical. -/
def KeepsWf (g : Memory → Memory) : Prop := ∀ m, Memory.wf m = true → Memory.wf (g m) = true

section
variable {f g : Memory → Memory} {a : Nat}

theorem Determines.of_before (hwf : KeepsWf f) (hf : Determines f a) (hg : Settles g a) :
    Determines (fun m => g (f m)) a := by
  rcases hg with hkeep | ⟨v, hv⟩
  · obtain ⟨v, hv⟩ := hf
    exact ⟨v, fun m hm => (hkeep _ (hwf m hm)).trans (hv m hm)⟩
  · exact ⟨v, fun m hm => hv _ (hwf m hm)⟩

theorem Determines.of_after (hwf : KeepsWf f) (hg : Determines g a) : Determines (fun m => g (f m)) a := by
  obtain ⟨v, hv⟩ := hg
  exact ⟨v, fun m hm => hv _ (hwf m hm)⟩

theorem Settles.comp (hwf : KeepsWf f) (hf : Settles f a) (hg : Settles g a) : Settles (fun m => g (f m)) a := by
  rcases hf with hkeep | hdet
  · rcases hg with hkeep' | hdet
    · exact .inl fun m hm => (hkeep' _ (hwf m hm)).trans (hkeep m hm)
    · exact .inr (hdet.of_after hwf)
  · exact .inr (hdet.of_before hwf hg)

/-- Doing it twice is doing it once. -/
theorem idempotent_of_settles (hwf : KeepsWf g) (hg : ∀ a, Settles g a) {m : Memory} (hm : Memory.wf m = true) :
    g (g m) = g m := by
  refine memory_ext (hwf _ (hwf m hm)) (hwf m hm) fun a => ?_
  rcases hg a with hkeep | ⟨v, hv⟩
  · exact hkeep _ (hwf m hm)
  · rw [hv _ (hwf m hm), hv m hm]

end

/-! ### The stores of bytes, samples and rows -/

theorem determines_write {a : Nat} (ha : a < 2 ^ 64) (v : Byte) : Determines (Memory.write · a v) a :=
  ⟨v, fun _ hm => read_write_same hm ha v⟩

theorem settles_write (b : Nat) (v : Byte) (a : Nat) : Settles (Memory.write · b v) a := by
  by_cases hab : a = b
  · subst hab
    by_cases ha : a < 2 ^ 64
    · exact .inr (determines_write ha v)
    · exact .inl fun m _ => congrArg (Memory.read · a) (if_neg ha)
  · exact .inl fun m _ => read_write_other m v hab

theorem keepsWf_write (b : Nat) (v : Byte) : KeepsWf (Memory.write · b v) := fun m => wf_write m b v

theorem keepsWf_storeSample (b n v : Nat) : KeepsWf (storeSample · b n v) := fun m => wf_storeSample m b n v

theorem settles_storeSample (b n v a : Nat) : Settles (storeSample · b n v) a := by
  unfold storeSample
  split
  · exact settles_write _ _ a
  · exact (settles_write b _ a).comp (keepsWf_write _ _) (settles_write (b + 1) _ a)

/-- A store determines the bytes of its sample (R62). -/
theorem determines_storeSample {n : Nat} (hn : n = 1 ∨ n = 2) (v : Nat) {a b : Nat} (hlo : b ≤ a) (hhi : a < b + n)
    (ha : a < 2 ^ 64) : Determines (storeSample · b n v) a := by
  rcases hn with rfl | rfl
  · obtain rfl : a = b := by omega
    exact determines_write ha _
  · obtain rfl | rfl : a = b ∨ a = b + 1 := by omega
    · exact (determines_write ha _).of_before (keepsWf_write _ _) (settles_write _ _ a)
    · exact (determines_write ha _).of_after (keepsWf_write _ _)

section
variable (op : ScaleOp) (pl : Planes)

theorem keepsWf_storeRow (r c : Nat) (d : Row) : KeepsWf (storeRow op pl r c d) := fun m => wf_storeRow op pl r c d m

theorem settles_storeRow (r c : Nat) (d : Row) (a : Nat) : Settles (storeRow op pl r c d) a := by
  induction d generalizing c with
  | nil => exact .inl fun _ _ => rfl
  | cons v rest ih =>
    exact (settles_storeSample _ _ _ a).comp (g := storeRow op pl r (c + 1) rest) (keepsWf_storeSample _ _ _) (ih (c + 1))

theorem settles_storeRows (w : RowWrites) (a : Nat) : Settles (storeRows op pl w) a := by
  induction w with
  | nil => exact .inl fun _ _ => rfl
  | cons rd rest ih =>
    exact (settles_storeRow op pl rd.1 0 rd.2 a).comp (g := storeRows op pl rest) (keepsWf_storeRow op pl _ _ _) ih

/-- Storing a row again changes nothing. -/
theorem storeRow_storeRow (r : Nat) (d : Row) {m : Memory} (hm : Memory.wf m = true) :
    storeRow op pl r 0 d (storeRow op pl r 0 d m) = storeRow op pl r 0 d m :=
  idempotent_of_settles (keepsWf_storeRow op pl r 0 d) (settles_storeRow op pl r 0 d) hm

variable {op pl}

/-- The stores of a row determine the bytes of its samples. -/
theorem determines_storeRow {r c k a : Nat} {d : Row} (hk : k < d.length) (hlo : (dstAddr op pl r (c + k)).toNat ≤ a)
    (hhi : a < (dstAddr op pl r (c + k)).toNat + dstBytes op) (ha : a < 2 ^ 64) :
    Determines (storeRow op pl r c d) a := by
  induction d generalizing c k with
  | nil => exact absurd hk (Nat.not_lt_zero k)
  | cons v rest ih =>
    cases k with
    | zero =>
      exact (determines_storeSample (dstBytes_cases op) _ hlo hhi ha).of_before
        (g := storeRow op pl r (c + 1) rest) (keepsWf_storeSample _ _ _) (settles_storeRow op pl r (c + 1) rest a)
    | succ k =>
      rw [← Nat.succ_add_eq_add_succ] at hlo hhi
      exact (ih (by simpa using hk) hlo hhi).of_after (g := storeRow op pl r (c + 1) rest) (keepsWf_storeSample _ _ _)

/-- The stores of a path's rows determine the bytes of the samples they write. -/
theorem determines_storeRows {w : RowWrites} {rd : Nat × Row} (hrd : rd ∈ w) {k a : Nat} (hk : k < rd.2.length)
    (hlo : (dstAddr op pl rd.1 k).toNat ≤ a) (hhi : a < (dstAddr op pl rd.1 k).toNat + dstBytes op) (ha : a < 2 ^ 64) :
    Determines (storeRows op pl w) a := by
  induction w with
  | nil => exact absurd hrd (List.not_mem_nil)
  | cons first rest ih =>
    rcases List.mem_cons.1 hrd with rfl | hrest
    · rw [← Nat.zero_add k] at hlo hhi
      exact (determines_storeRow hk hlo hhi ha).of_before (g := storeRows op pl rest)
        (keepsWf_storeRow op pl _ _ _) (settles_storeRows op pl rest a)
    · exact (ih hrest).of_after (g := storeRows op pl rest) (keepsWf_storeRow op pl _ _ _)

end

/-! ### Rows written again (R238) -/

section
variable (op : ScaleOp) (pl : Planes) {m : Memory} (hm : Memory.wf m = true)
include hm

theorem storeRows_append (v w : RowWrites) : storeRows op pl (v ++ w) m = storeRows op pl w (storeRows op pl v m) := by
  induction v generalizing m with
  | nil => rfl
  | cons rd rest ih => exact ih (wf_storeRow _ _ _ _ _ _ hm)

/-- A first row written twice is written once. -/
theorem storeRows_first_again (rd : Nat × Row) (w : RowWrites) :
    storeRows op pl (rd :: rd :: w) m = storeRows op pl (rd :: w) m := by
  simp only [storeRows]
  rw [storeRow_storeRow op pl rd.1 rd.2 hm]

/-- A last row written twice is written once. -/
theorem storeRows_last_again (rd : Nat × Row) (w : RowWrites) :
    storeRows op pl (w ++ [rd, rd]) m = storeRows op pl (w ++ [rd]) m := by
  rw [storeRows_append op pl hm, storeRows_append op pl hm,
    storeRows_first_again op pl (wf_storeRows op pl w m hm) rd []]

end

/-! ### A path whose rows are known (R266, R267) -/

section
variable {p : PathCode} {op : ScaleOp} {pl : Planes} {m : FilterMode} {s : State}
  (hpost : postCheck s.cfg op pl p = .runs)
include hpost

/-- A path whose rows lie in the destination stores them. -/
theorem runPath_of_rows {w : RowWrites} (hrows : pathRows p (pathJob op pl m s) (pathStep pl p m) = .ok w)
    (hin : writesInside pl w = true) :
    runPath p op pl m s = (afterPath p (pathStep pl p m) (storeRows op pl w s.mem) s, none) := by
  have hwrites : pathWrites p (pathJob op pl m s) (pathStep pl p m) = .ok w := by
    rw [pathWrites, hrows]
    exact if_pos hin
  rcases runPath_cases p op pl m s with ⟨e, hfails, -⟩ | ⟨hshort, -⟩ | ⟨w', -, hw, hr⟩ | ⟨e, -, he, -⟩
  · cases hpost.symm.trans hfails
  · cases hpost.symm.trans hshort
  · cases hwrites.symm.trans hw
    exact hr
  · cases hwrites.symm.trans he

/-- A path whose rows raise leaves its destination unspecified. -/
theorem runPath_of_error {e : Err} (hrows : pathRows p (pathJob op pl m s) (pathStep pl p m) = .error e) :
    runPath p op pl m s = (scrambleDst op pl (setStep (pathStep pl p m) (setPath p s)), some e) := by
  have hwrites : pathWrites p (pathJob op pl m s) (pathStep pl p m) = .error e := by
    rw [pathWrites, hrows]
    rfl
  rcases runPath_cases p op pl m s with ⟨e', hfails, -⟩ | ⟨hshort, -⟩ | ⟨w, -, hw, -⟩ | ⟨e', -, he, hr⟩
  · cases hpost.symm.trans hfails
  · cases hpost.symm.trans hshort
  · cases hwrites.symm.trans hw
  · cases hwrites.symm.trans he
    exact hr

end

end Sys2Proof.Proofs.RowStores

/-! PROOFS. The exact 2x upscale paths (R235 to R242): the rows that are doubled, over any source of rows, so that the
range-checked source of the 12-bit paths gives the same rows. -/

namespace Sys2Proof.Proofs.DoublingPaths

open Sys2Proof Sys2Proof.Machine Sys2Proof.Proofs.KernelAnswers Sys2Proof.Proofs.FixedPoint
  Sys2Proof.Proofs.HostMemory Sys2Proof.Proofs.ReducerAndSelector Sys2Proof.Proofs.RunningPaths
  Sys2Proof.Proofs.RowKernels Sys2Proof.Proofs.DoublingKernels Sys2Proof.Proofs.PathCoordinates
  Sys2Proof.Proofs.RowStores

/-! ### The sizes of a doubled plane (R147) -/

section
variable {pl : Planes} (hsizes : LegalSizes pl)
include hsizes

theorem srcWidth_of_doubles (h : doubles pl.srcW.toInt pl.dstW.toInt = true) :
    srcWidth pl = (dstWidth pl + 1) / 2 := by
  have hdst := hsizes.dstWidth_eq
  have hpos := hsizes.dstWidth_pos
  rw [doubles_iff (by omega)] at h
  unfold srcWidth
  omega

theorem srcHeight_of_doubles (h : doubles (srcHeight pl) pl.dstH.toInt = true) :
    srcHeight pl = (dstHeight pl + 1) / 2 := by
  have hdst := hsizes.dstHeight_eq
  have hpos := hsizes.dstHeight_pos
  rw [doubles_iff (by omega)] at h
  omega

end

/-! ### UP2_LINEAR (R235) -/

/-- The step of the row index does not overflow, and the last row is inside the source (R235). -/
theorem fixedDiv_rows {h hd : Nat} (hh : 1 ≤ h) (hh' : h ≤ 32768) (hd2 : 2 ≤ hd) :
    fixedDiv ((h : Int) - 1) ((hd : Int) - 1) = ((h - 1) * 65536 / (hd - 1) : Nat) := by
  rw [← Nat.cast_pred hh, ← Nat.cast_pred (by omega : 0 < hd)]
  exact fixedDiv_exact (by omega) (by omega) (by omega)

theorem wholePart_rows {h hd : Nat} (hh : 1 ≤ h) (hh' : h ≤ 32768) (hd2 : 2 ≤ hd) (j : Nat) :
    wholePart (32767 + j * fixedDiv ((h : Int) - 1) ((hd : Int) - 1)) = doubledRowIndex h hd j := by
  rw [fixedDiv_rows hh hh' hd2, wholePart_eq, doubledRowIndex, if_neg (by omega)]
  norm_cast

theorem doubledRowIndex_lt {h hd j : Nat} (hh : 1 ≤ h) (hj : j < hd) : doubledRowIndex h hd j < h := by
  unfold doubledRowIndex
  split
  · omega
  · have hstep : j * ((h - 1) * 65536 / (hd - 1)) ≤ (h - 1) * 65536 := by
      calc j * ((h - 1) * 65536 / (hd - 1))
          ≤ (hd - 1) * ((h - 1) * 65536 / (hd - 1)) := Nat.mul_le_mul_right _ (by omega)
        _ ≤ (h - 1) * 65536 := Nat.mul_div_le _ _
    omega

/-- The output plane of the linear doubling over the source rows `p` (R235). -/
def doubledRowsPlane (pl : Planes) (p : Nat → Nat → Nat) (j c : Nat) : Nat :=
  doubledRow (p (doubledRowIndex (srcHeight pl) (dstHeight pl) j)) (dstWidth pl) c

section
variable {op : ScaleOp} {pl : Planes} {m : FilterMode} {s : State} (hsizes : LegalSizes pl)
include hsizes

/-- Each output row doubles the row of its index, whatever the source of rows. -/
theorem up2LinearRows_eq (src : Int → Reader) : up2LinearRows (pathJob op pl m s) src =
    planeOf (pathJob op pl m s) fun j =>
      up2Linear (src (doubledRowIndex (srcHeight pl) (dstHeight pl) j)) (dstWidth pl) := by
  have hh := hsizes.srcHeight_pos
  have hd1 := hsizes.dstHeight_pos
  by_cases hone : dstHeight pl = 1
  · have hrow : ((srcHeight pl : Int) - 1).tdiv 2 = ((srcHeight pl - 1) / 2 : Nat) := by
      rw [Int.tdiv_eq_ediv_of_nonneg (by omega)]
      omega
    refine (if_pos hone).trans ?_
    change (up2Linear (src (((srcHeight pl : Int) - 1).tdiv 2)) (dstWidth pl) >>= fun d => .ok [(0, d)]) =
      planeFrom _ 0 (dstHeight pl)
    rw [hrow, hone]
    rfl
  · refine (if_neg hone).trans (planeOf_congr fun j _ => ?_)
    change up2Linear (src (wholePart (32767 + j * fixedDiv ((srcHeight pl : Int) - 1) ((dstHeight pl : Int) - 1)))) _ = _
    rw [wholePart_rows hh hsizes.srcHeight_le (by omega)]
    rfl

theorem up2LinearRows_ok (hwidth : srcWidth pl = (dstWidth pl + 1) / 2) {src : Int → Reader} {p : Nat → Nat → Nat}
    (hsrc : ∀ r : Nat, checkedRow .up2Linear12 pl r → Reads (src r) (p r) (srcWidth pl)) :
    up2LinearRows (pathJob op pl m s) src = .ok (planeRows pl (doubledRowsPlane pl p)) := by
  rw [up2LinearRows_eq hsizes]
  exact planeOf_ok _ fun j hj => up2Linear_ok hsizes.dstWidth_pos (hwidth ▸ hsrc _ ⟨j, hj, rfl⟩)

theorem checkedRow_inside {p : PathCode} {r : Nat} (h : checkedRow p pl r) : r < srcHeight pl := by
  cases p
  case up2Linear12 =>
    obtain ⟨j, hj, rfl⟩ := h
    exact doubledRowIndex_lt hsizes.srcHeight_pos hj
  case up2Bilinear12 => exact h
  all_goals exact h.elim

end

/-! ### The range check (R243) -/

/-- A range-checked row without wide samples reads as the row. -/
theorem reads_rangeChecked {t : Reader} {p : Nat → Nat} {n : Nat} (h : Reads t p n) (hp : ∀ c < n, p c ≤ 4095) :
    Reads (rangeChecked t) p n := fun c hc =>
  h.bind_eq c (if_neg (by have := hp c hc; omega))

theorem rangeCheckedRows_ok {jb : PathJob} {rows : (Int → Reader) → Res RowWrites} {w : RowWrites}
    (hplain : rows (jobRow jb) = .ok w) (hchecked : rows (fun r => rangeChecked (jobRow jb r)) = .ok w) :
    rangeCheckedRows jb rows = .ok w := bind_eq_of_ok hplain (bind_eq_of_ok hchecked rfl)

/-- The source samples by row. -/
def sourceRows (op : ScaleOp) (pl : Planes) (mem : Memory) (r c : Nat) : Nat := srcSample op pl mem r c

/-- No row that the path reads holds a sample above 4095. -/
def NoWideSample (p : PathCode) (op : ScaleOp) (pl : Planes) (mem : Memory) : Prop :=
  ∀ r c : Nat, checkedRow p pl r → c < srcWidth pl → srcSample op pl mem r c ≤ 4095

section
variable {p : PathCode} {op : ScaleOp} {pl : Planes} {m : FilterMode} {s : State}

theorem reads_checkedRow (hsizes : LegalSizes pl) (r : Nat) (hr : checkedRow p pl r) :
    Reads (jobRow (pathJob op pl m s) r) (sourceRows op pl s.mem r) (srcWidth pl) :=
  reads_row (checkedRow_inside hsizes hr)

theorem reads_rangeChecked_checkedRow (hsizes : LegalSizes pl) (hnarrow : NoWideSample p op pl s.mem) (r : Nat)
    (hr : checkedRow p pl r) :
    Reads (rangeChecked (jobRow (pathJob op pl m s) r)) (sourceRows op pl s.mem r) (srcWidth pl) :=
  reads_rangeChecked (reads_checkedRow hsizes r hr) (hnarrow r · hr ·)

theorem up2LinearRows_jobRow_ok (hsizes : LegalSizes pl) (hwidth : srcWidth pl = (dstWidth pl + 1) / 2) :
    up2LinearRows (pathJob op pl m s) (jobRow (pathJob op pl m s)) =
      .ok (planeRows pl (doubledRowsPlane pl (sourceRows op pl s.mem))) :=
  up2LinearRows_ok hsizes hwidth (reads_checkedRow hsizes)

theorem up2Linear12Rows_ok (hsizes : LegalSizes pl) (hwidth : srcWidth pl = (dstWidth pl + 1) / 2)
    (hnarrow : NoWideSample .up2Linear12 op pl s.mem) :
    rangeCheckedRows (pathJob op pl m s) (up2LinearRows (pathJob op pl m s)) =
      .ok (planeRows pl (doubledRowsPlane pl (sourceRows op pl s.mem))) :=
  rangeCheckedRows_ok (up2LinearRows_jobRow_ok hsizes hwidth)
    (up2LinearRows_ok hsizes hwidth (reads_rangeChecked_checkedRow hsizes hnarrow))

end

/-- Settles O32: the doubled rows lie in the source, and the range check lets them through. -/
theorem doubledRowsLinear : Obligations.DoubledRowsLinear := by
  unfold Obligations.DoubledRowsLinear
  intro op pl m s h hd out
  refine ⟨fun hruns => ?_, fun hruns hnarrow => ?_⟩
  · have hsizes := legalSizes_of_pathRuns hruns
    have hwidth := srcWidth_of_doubles hsizes (exactRatio_of_pathRuns hruns)
    exact execPath_stores_noStep hruns rfl (up2LinearRows_jobRow_ok hsizes hwidth)
  · have hsizes := legalSizes_of_pathRuns hruns
    have hwidth := srcWidth_of_doubles hsizes (exactRatio_of_pathRuns hruns)
    exact execPath_stores_noStep hruns rfl (up2Linear12Rows_ok hsizes hwidth hnarrow)

/-! ### UP2_BILINEAR (R238) -/

/-- The output plane of the bilinear doubling over the source rows `p` (R238). -/
def doubledPlane (pl : Planes) (p : Nat → Nat → Nat) (j c : Nat) : Nat :=
  let h := srcHeight pl
  let hd := dstHeight pl
  let i := (j - 1) / 2
  if j = 0 then doubledPair (p 0) (p 0) (dstWidth pl) c
  else if j = hd - 1 ∧ hd % 2 = 0 then doubledPair (p (h - 1)) (p (h - 1)) (dstWidth pl) c
  else if j % 2 = 1 then doubledPair (p i) (p (i + 1)) (dstWidth pl) c
  else doubledPair (p (i + 1)) (p i) (dstWidth pl) c

/-- One write of output row r. -/
def rowWrite (pl : Planes) (f : Nat → Nat → Nat) (r : Nat) : Nat × Row := (r, (List.range (dstWidth pl)).map (f r))

/-- The writes of the bilinear doubling: the edge rows are written twice (R238). -/
def doubledWrites (pl : Planes) (f : Nat → Nat → Nat) : RowWrites :=
  rowWrite pl f 0 :: rowWrite pl f 0 :: (List.range' 1 (2 * (srcHeight pl - 1))).map (rowWrite pl f) ++
    if dstHeight pl % 2 = 0 then [rowWrite pl f (dstHeight pl - 1), rowWrite pl f (dstHeight pl - 1)] else []

section
variable {op : ScaleOp} {pl : Planes} {m : FilterMode} {s : State} {src : Int → Reader} {p : Nat → Nat → Nat}

theorem doubledPlane_first (pl : Planes) (p : Nat → Nat → Nat) :
    doubledPlane pl p 0 = doubledPair (p 0) (p 0) (dstWidth pl) := rfl

theorem doubledPlane_last (heven : dstHeight pl % 2 = 0) (hpos : 1 ≤ dstHeight pl) :
    doubledPlane pl p (dstHeight pl - 1) = doubledPair (p (srcHeight pl - 1)) (p (srcHeight pl - 1)) (dstWidth pl) := by
  funext c
  unfold doubledPlane
  rw [if_neg (by omega), if_pos ⟨rfl, heven⟩]

/-- An interior pair of output rows lies between two source rows. -/
theorem doubledPlane_pair (hheight : srcHeight pl = (dstHeight pl + 1) / 2) {k : Nat} (hk : k + 1 < srcHeight pl) :
    doubledPlane pl p (2 * k + 1) = doubledPair (p k) (p (k + 1)) (dstWidth pl) ∧
    doubledPlane pl p (2 * k + 2) = doubledPair (p (k + 1)) (p k) (dstWidth pl) := by
  constructor <;> funext c <;> unfold doubledPlane
  · rw [if_neg (by omega), if_neg (by omega), if_pos (by omega), show (2 * k + 1 - 1) / 2 = k by omega]
  · rw [if_neg (by omega), if_neg (by omega), if_neg (by omega), show (2 * k + 2 - 1) / 2 = k by omega]

variable (hsizes : LegalSizes pl) (hwidth : srcWidth pl = (dstWidth pl + 1) / 2)
  (hsrc : ∀ r : Nat, r < srcHeight pl → Reads (src r) (p r) (srcWidth pl))
include hsizes hwidth hsrc

theorem up2Bilinear_rows_ok {i j : Nat} (hi : i < srcHeight pl) (hj : j < srcHeight pl) :
    up2Bilinear (src i) (src j) (dstWidth pl) = .ok ((List.range (dstWidth pl)).map (doubledPair (p i) (p j) (dstWidth pl)),
      (List.range (dstWidth pl)).map (doubledPair (p j) (p i) (dstWidth pl))) :=
  up2Bilinear_ok hsizes.dstWidth_pos (hwidth ▸ hsrc i hi) (hwidth ▸ hsrc j hj)

variable (hheight : srcHeight pl = (dstHeight pl + 1) / 2)
include hheight

theorem up2BilinearPairs_ok {k : Nat} (hk : k + 1 ≤ srcHeight pl) :
    up2BilinearPairs (pathJob op pl m s) src k = .ok ((List.range' 1 (2 * k)).map (rowWrite pl (doubledPlane pl p))) := by
  induction k with
  | zero => rfl
  | succ k ih =>
    obtain ⟨hodd, heven⟩ := doubledPlane_pair (p := p) hheight (show k + 1 < srcHeight pl by omega)
    have hpair := up2Bilinear_rows_ok hsizes hwidth hsrc (show k < srcHeight pl by omega)
      (show k + 1 < srcHeight pl by omega)
    refine bind_eq_of_ok (ih (by omega)) (bind_eq_of_ok (by exact_mod_cast hpair) ?_)
    rw [Nat.mul_succ, List.range'_1_concat, List.range'_1_concat, ← hodd, ← heven, Nat.add_comm 1, Nat.add_comm 1]
    simp only [List.map_append, List.append_assoc]
    rfl

theorem up2BilinearRows_ok :
    up2BilinearRows (pathJob op pl m s) src = .ok (doubledWrites pl (doubledPlane pl p)) := by
  have hh := hsizes.srcHeight_pos
  have hpair {i : Nat} (hi : i < srcHeight pl) := up2Bilinear_rows_ok hsizes hwidth hsrc hi hi
  have hlast : ((srcHeight pl : Int) - 1) = (srcHeight pl - 1 : Nat) := by omega
  refine bind_eq_of_ok (hpair (i := 0) hh) (bind_eq_of_ok
    (up2BilinearPairs_ok hsizes hwidth hsrc hheight (show srcHeight pl - 1 + 1 ≤ srcHeight pl by omega)) ?_)
  unfold doubledWrites rowWrite
  by_cases heven : dstHeight pl % 2 = 0
  · refine (if_pos heven).trans ?_
    rw [if_pos heven, doubledPlane_last heven hsizes.dstHeight_pos]
    refine bind_eq_of_ok (hlast ▸ hpair (i := srcHeight pl - 1) (by omega)) rfl
  · refine (if_neg heven).trans ?_
    rw [if_neg heven, List.append_nil]
    rfl

end

/-! ### The stores of the bilinear doubling (R238) -/

section
variable {pl : Planes} {f : Nat → Nat → Nat} (hpos : 1 ≤ dstHeight pl)
  (hheight : srcHeight pl = (dstHeight pl + 1) / 2)
include hpos hheight

theorem writesInside_doubledWrites : writesInside pl (doubledWrites pl f) = true := by
  have hrow {r : Nat} (hr : r < dstHeight pl) :
      (decide ((rowWrite pl f r).1 < dstHeight pl) && decide ((rowWrite pl f r).2.length ≤ dstWidth pl)) = true := by
    simp [rowWrite, hr]
  simp only [writesInside, List.all_eq_true]
  intro rd hrd
  simp only [doubledWrites, List.cons_append, List.mem_cons, List.mem_append, List.mem_map, List.mem_range'_1] at hrd
  rcases hrd with rfl | rfl | ⟨r, hr, rfl⟩ | hlast
  · exact hrow (by omega)
  · exact hrow (by omega)
  · exact hrow (by omega)
  · split at hlast
    · obtain rfl : rd = rowWrite pl f (dstHeight pl - 1) := by simpa using hlast
      exact hrow (by omega)
    · simp at hlast

theorem planeRows_eq_once : planeRows pl f =
    rowWrite pl f 0 :: (List.range' 1 (2 * (srcHeight pl - 1))).map (rowWrite pl f) ++
      if dstHeight pl % 2 = 0 then [rowWrite pl f (dstHeight pl - 1)] else [] := by
  change (List.range (dstHeight pl)).map (rowWrite pl f) = _
  obtain ⟨n, hn⟩ := Nat.exists_eq_add_of_le' hpos
  rw [hn, List.range_eq_range', List.range'_succ, List.map_cons]
  split
  case isTrue heven =>
    rw [show n = 2 * (srcHeight pl - 1) + 1 by omega, List.range'_1_concat, List.map_append, List.cons_append,
      Nat.add_comm (0 + 1) (2 * _)]
    rfl
  case isFalse hodd =>
    rw [show n = 2 * (srcHeight pl - 1) by omega, List.append_nil]

/-- The edge rows hold equal values both times that they are written (R178). -/
theorem storeRows_doubledWrites (op : ScaleOp) {mem : Memory} (hmem : Memory.wf mem = true) :
    storeRows op pl (doubledWrites pl f) mem = storePlane op pl f mem := by
  change _ = storeRows op pl (planeRows pl f) mem
  rw [planeRows_eq_once hpos hheight, doubledWrites, List.cons_append, List.cons_append, storeRows_first_again op pl hmem,
    ← List.cons_append]
  split
  · exact storeRows_last_again op pl hmem ..
  · rfl

end

section
variable {p : PathCode} {op : ScaleOp} {pl : Planes} {m : FilterMode} {s : State} {f : Nat → Nat → Nat}

/-- A path that runs, and whose writes leave the formula in memory, stores the formula, whatever order it writes in. -/
theorem execPath_stores_writes {w : RowWrites} (hruns : pathRuns p op pl m s.cfg = true) (hstep : pathStep pl p m = noStep)
    (hrows : pathRows p (pathJob op pl m s) noStep = .ok w) (hin : writesInside pl w = true)
    (hmem : storeRows op pl w s.mem = storePlane op pl f s.mem) :
    execPath p op pl m s = .next (afterPath p noStep (storePlane op pl f s.mem) s) := by
  simp only [pathRuns, Bool.and_eq_true, decide_eq_true_eq] at hruns
  obtain ⟨hready, hpost⟩ := hruns
  rw [← hstep] at hrows ⊢
  rw [execPath, if_pos hready, runPath_of_rows hpost hrows hin, hmem]

theorem up2BilinearRows_jobRow_ok (hsizes : LegalSizes pl) (hwidth : srcWidth pl = (dstWidth pl + 1) / 2)
    (hheight : srcHeight pl = (dstHeight pl + 1) / 2) :
    up2BilinearRows (pathJob op pl m s) (jobRow (pathJob op pl m s)) =
      .ok (doubledWrites pl (doubledPlane pl (sourceRows op pl s.mem))) :=
  up2BilinearRows_ok hsizes hwidth (reads_checkedRow (p := .up2Bilinear12) hsizes) hheight

theorem up2Bilinear12Rows_ok (hsizes : LegalSizes pl) (hwidth : srcWidth pl = (dstWidth pl + 1) / 2)
    (hheight : srcHeight pl = (dstHeight pl + 1) / 2) (hnarrow : NoWideSample .up2Bilinear12 op pl s.mem) :
    rangeCheckedRows (pathJob op pl m s) (up2BilinearRows (pathJob op pl m s)) =
      .ok (doubledWrites pl (doubledPlane pl (sourceRows op pl s.mem))) :=
  rangeCheckedRows_ok (up2BilinearRows_jobRow_ok hsizes hwidth hheight)
    (up2BilinearRows_ok hsizes hwidth (reads_rangeChecked_checkedRow hsizes hnarrow) hheight)

end

theorem sizes_of_up2Bilinear {p : PathCode} {pl : Planes} (hp : p = .up2Bilinear ∨ p = .up2Bilinear12)
    (hsizes : LegalSizes pl) (h : exactRatio p pl = true) :
    srcWidth pl = (dstWidth pl + 1) / 2 ∧ srcHeight pl = (dstHeight pl + 1) / 2 := by
  obtain ⟨hheight, hwidth⟩ : doubles (srcHeight pl) pl.dstH.toInt = true ∧ doubles pl.srcW.toInt pl.dstW.toInt = true := by
    rcases hp with rfl | rfl <;> exact Bool.and_eq_true_iff.1 h
  exact ⟨srcWidth_of_doubles hsizes hwidth, srcHeight_of_doubles hsizes hheight⟩

/-- Settles O33: the rows between, and the edge rows, whose second write changes nothing. -/
theorem doubledPlaneBilinear : Obligations.DoubledPlaneBilinear := by
  unfold Obligations.DoubledPlaneBilinear
  intro op pl m s hmem h hd out
  refine ⟨fun hruns => ?_, fun hruns hnarrow => ?_⟩
  · have hsizes := legalSizes_of_pathRuns hruns
    have hpos := hsizes.dstHeight_pos
    obtain ⟨hwidth, hheight⟩ := sizes_of_up2Bilinear (.inl rfl) hsizes (exactRatio_of_pathRuns hruns)
    exact execPath_stores_writes hruns rfl (up2BilinearRows_jobRow_ok hsizes hwidth hheight)
      (writesInside_doubledWrites hpos hheight) (storeRows_doubledWrites hpos hheight op hmem)
  · have hsizes := legalSizes_of_pathRuns hruns
    have hpos := hsizes.dstHeight_pos
    obtain ⟨hwidth, hheight⟩ := sizes_of_up2Bilinear (.inr rfl) hsizes (exactRatio_of_pathRuns hruns)
    exact execPath_stores_writes hruns rfl (up2Bilinear12Rows_ok hsizes hwidth hheight hnarrow)
      (writesInside_doubledWrites hpos hheight) (storeRows_doubledWrites hpos hheight .scale12 hmem)

end Sys2Proof.Proofs.DoublingPaths

/-! PROOFS. The errors that a path raises while it runs (R213, R243, R264, R267, R305, R307): which calls raise them, and what
a P operation and a command leave. -/

namespace Sys2Proof.Proofs.RunningErrors

open Sys2Proof Sys2Proof.Machine Sys2Proof.Proofs.KernelAnswers Sys2Proof.Proofs.HostMemory
  Sys2Proof.Proofs.RunningPaths Sys2Proof.Proofs.RowKernels Sys2Proof.Proofs.PathCoordinates
  Sys2Proof.Proofs.RowStores Sys2Proof.Proofs.DoublingPaths

/-! ### The destination after a raise (R267) -/

section
variable {cfg : Config} {p : PathCode} {op : ScaleOp} {pl : Planes}

/-- Every byte of the destination footprint exists when the checks have passed (R61, R311). -/
theorem memValid_of_runs (hpost : postCheck cfg op pl p = .runs) {a : Nat}
    (ha : inSpans (dstSpans op pl) a = true) : memValid cfg a = true := by
  obtain ⟨-, -, ⟨hspace, hvalid, -⟩, -⟩ := postCheck_runs_iff.1 hpost
  simp only [not_or, Bool.not_eq_false] at hspace hvalid
  obtain ⟨sp, hsp, hin⟩ := List.any_eq_true.1 ha
  have hsp64 := List.all_eq_true.1 hspace.2 sp hsp
  have hholes := List.all_eq_true.1 hvalid.2 sp hsp
  simp only [Bool.and_eq_true, decide_eq_true_eq] at hin hsp64
  refine (memValid_iff cfg a).2 ⟨by omega, fun h hh => ?_⟩
  have hmiss := List.all_eq_true.1 hholes h hh
  simp only [Bool.or_eq_true, decide_eq_true_eq] at hmiss
  omega

/-- The free values of the state's next event stand in the destination footprint, and memory is as it was elsewhere (log 4). -/
def DstFreed (op : ScaleOp) (pl : Planes) (s : State) (mem : Memory) : Prop :=
  ∀ a : Nat,
    (inSpans (dstSpans op pl) a = false → Memory.read mem a = Memory.read s.mem a) ∧
    (inSpans (dstSpans op pl) a = true → Memory.read mem a = Config.freeByte s.free a)

theorem dstFreed_scrambleDst {s : State} (hpost : postCheck s.cfg op pl p = .runs) (hwf : Memory.wf s.mem = true) :
    DstFreed op pl s (scrambleDst op pl s).mem := fun _ =>
  ⟨read_scrambleDst_other op pl s, fun hin => read_scrambleDst_mem op pl hwf hin (memValid_of_runs hpost hin)⟩

end

theorem endCommand_undisturbed (e : Option Err) {s : State} (h : undisturbed s = true) :
    endCommand e s = { s with phase := .idle, done := true, err := e, scratchGen := s.scratchGen + 1 } := by
  unfold undisturbed at h
  unfold endCommand
  split at h
  · cases h
  all_goals
    rename_i hphase
    simp only [hphase]

section
variable {p : PathCode} {op : ScaleOp} {pl : Planes} {m : FilterMode} {s : State} {e : Err}

/-- The selection whose report a P operation leaves: its path, and the mode that EFF_FILTER held (log 5). -/
def ownSelection (p : PathCode) (s : State) : Selection where
  path := p
  mode := s.effFilter
  flipped := false
  height := 0

theorem endCommand_scrambleDst (st : ScaleStep) (hpost : postCheck s.cfg op pl p = .runs) (hwf : Memory.wf s.mem = true)
    (hund : undisturbed s = true) :
    ∃ mem, endCommand (some e) (scrambleDst op pl (setStep st (setPath p s))) =
      raisedInPath e (ownSelection p s) st mem s ∧ DstFreed op pl s mem :=
  ⟨_, endCommand_undisturbed _ hund, dstFreed_scrambleDst (s := setStep st (setPath p s)) hpost hwf⟩

/-- What a P operation leaves that raises while it runs (R267, R300). -/
theorem execPath_raises (hruns : pathRuns p op pl m s.cfg = true) (hwf : Memory.wf s.mem = true)
    (hund : undisturbed s = true) (hrows : pathRows p (pathJob op pl m s) (pathStep pl p m) = .error e) :
    ∃ mem, execPath p op pl m s = .next (raisedInPath e (ownSelection p s) (pathStep pl p m) mem s) ∧
      DstFreed op pl s mem := by
  simp only [pathRuns, Bool.and_eq_true, decide_eq_true_eq] at hruns
  obtain ⟨hready, hpost⟩ := hruns
  obtain ⟨mem, hend, hmem⟩ := endCommand_scrambleDst (e := e) (pathStep pl p m) hpost hwf hund
  refine ⟨mem, ?_, hmem⟩
  rw [execPath, if_pos hready, runPath_of_error hpost hrows, ← hend]

end

/-! ### The overflow of VERTICAL (R213, R305 (b)) -/

theorem rowOf_error_of_first {f : Nat → Res Nat} {n : Nat} {e : Err} (hn : 1 ≤ n) (h : f 0 = .error e) :
    rowOf n f = .error e := by
  obtain ⟨k, rfl⟩ := Nat.exists_eq_add_of_le' hn
  rw [rowOf, rowFrom, h]
  rfl

theorem planeOf_error_of_first {jb : PathJob} {f : Nat → Res Row} {e : Err} (hn : 1 ≤ jobHd jb) (h : f 0 = .error e) :
    planeOf jb f = .error e := by
  obtain ⟨k, hk⟩ := Nat.exists_eq_add_of_le' hn
  rw [planeOf, hk, planeFrom, h]
  rfl

/-- FixedDiv wraps 2^31, and CENTERSTART of the negative step is a negative row (R213). -/
theorem verticalStep_overflow : verticalStep 32768 1 = { x := 0, y := -1073709056, dx := 0, dy := -2147483648 } := by
  have hdiv : fixedDiv 32768 1 = -2147483648 := rfl
  rw [verticalStep, if_pos (by decide), hdiv]
  rfl

section
variable {op : ScaleOp} {pl : Planes} {m : FilterMode} {s : State} (hsizes : LegalSizes pl)
  (hheight : srcHeight pl = 32768) (hone : dstHeight pl = 1)
include hsizes hheight hone

theorem pathStep_vertical_overflow : pathStep pl .vertical m =
    { x := 0, y := -1073709056, dx := 0, dy := -2147483648 } := by
  change verticalStep (srcHeight pl) pl.dstH.toInt = _
  rw [hsizes.dstHeight_eq, hheight, hone]
  exact verticalStep_overflow

/-- The first sample is read above the source. -/
theorem verticalRows_overflow :
    verticalRows (pathJob op pl m s) (pathStep pl .vertical m) = .error .oob := by
  rw [pathStep_vertical_overflow hsizes hheight hone]
  refine planeOf_error_of_first hsizes.dstHeight_pos (rowOf_error_of_first hsizes.dstWidth_pos ?_)
  have hread (c : Int) : jobRow (pathJob op pl m s)
      (wholePart (min (-1073709056 + ((0 : Nat) : Int) * -2147483648) (verticalMaxY pl))) c = .error .oob := by
    refine srcRow_oob op pl s.mem (.inl ?_)
    rw [wholePart_eq]
    omega
  exact congrArg (· >>= _) (hread _)

end

/-- Settles O36: the overflowed step points above the source, and the raise leaves the report of R267. -/
theorem verticalOverflowRaisesOob : Obligations.VerticalOverflowRaisesOob := by
  unfold Obligations.VerticalOverflowRaisesOob
  intro op pl m s hruns hwf hund hheight hone
  have hsizes := legalSizes_of_pathRuns hruns
  obtain ⟨mem, hexec, hmem⟩ := execPath_raises hruns hwf hund (verticalRows_overflow hsizes hheight hone)
  rw [pathStep_vertical_overflow hsizes hheight hone] at hexec
  exact ⟨_, hexec, rfl, rfl, rfl, rfl, rfl, rfl, rfl, rfl, hmem⟩

/-! ### A computation and its range-checked twin (R243) -/

/-- The twin raises ERR_RANGE12, or it answers as the computation does, and then only on reads of which `P` holds. -/
def CheckedBy {α : Type} (P : Prop) (r r' : Res α) : Prop :=
  r' = .error .range12 ∨ r' = r ∧ ∀ v, r = .ok v → P

/-- The sample is none above 4095. -/
def Narrow (t : Reader) (c : Nat) : Prop := ∀ v, t c = .ok v → v ≤ 4095

section
variable {α β : Type} {P Q : Prop}

theorem CheckedBy.same (r : Res α) (hP : P) : CheckedBy P r r := .inr ⟨rfl, fun _ _ => hP⟩

theorem CheckedBy.mono {r r' : Res α} (h : CheckedBy P r r') (hPQ : P → Q) : CheckedBy Q r r' :=
  h.imp_right fun ⟨heq, hP⟩ => ⟨heq, fun v hv => hPQ (hP v hv)⟩

theorem CheckedBy.bind {r r' : Res α} {f f' : α → Res β} (hr : CheckedBy P r r') (hf : ∀ v, CheckedBy Q (f v) (f' v)) :
    CheckedBy (P ∧ Q) (r >>= f) (r' >>= f') := by
  rcases hr with rfl | ⟨rfl, hP⟩
  · exact .inl rfl
  · rcases r' with e | v
    · exact .inr ⟨rfl, nofun⟩
    · exact (hf v).mono fun hQ => ⟨hP v rfl, hQ⟩

/-- A step that reads nothing is the same in both. -/
theorem CheckedBy.bind_same (r : Res α) {f f' : α → Res β} (hf : ∀ v, CheckedBy Q (f v) (f' v)) :
    CheckedBy Q (r >>= f) (r >>= f') := by
  rcases r with e | v
  · exact .inr ⟨rfl, nofun⟩
  · exact hf v

/-- Where the computation answers and a sample that it reads is wide, the twin raises. -/
theorem CheckedBy.error {r r' : Res α} {v : α} (h : CheckedBy P r r') (hr : r = .ok v) (hP : ¬ P) :
    r' = .error .range12 := h.resolve_right fun ⟨_, hok⟩ => hP (hok v hr)

theorem rangeChecked_checkedBy (t : Reader) (c : Nat) : CheckedBy (Narrow t c) (t c) (rangeChecked t c) := by
  unfold CheckedBy Narrow rangeChecked
  rcases t c with e | v
  · exact .inr ⟨rfl, nofun⟩
  · by_cases hv : 4095 < v
    · exact .inl (if_pos hv)
    · refine .inr ⟨if_neg hv, fun u _ w hw => ?_⟩
      cases hw
      omega

end

/-! ### The doubling kernels and paths, range-checked (R241 to R243) -/

/-- The columns that a doubling kernel of n outputs reads hold no wide sample. -/
def NarrowRow (t : Reader) (n : Nat) : Prop := ∀ c ≤ (n - 1) / 2, Narrow t c

section
variable (t u : Reader)

theorem up2LinearCore_checkedBy (k : Nat) (d : Row) (o : Nat) :
    CheckedBy (∀ c < k, Narrow t c) (up2LinearCore t k d o) (up2LinearCore (rangeChecked t) k d o) := by
  induction k with
  | zero => exact .same _ nofun
  | succ k ih =>
    refine (ih.bind fun d => (rangeChecked_checkedBy t k).bind fun a => (rangeChecked_checkedBy t (k + 1)).bind fun b =>
      .same (P := True) _ trivial).mono ?_
    rintro ⟨hbefore, hk, -, -⟩ c hc
    rcases Nat.lt_succ_iff_lt_or_eq.1 hc with hlt | rfl
    · exact hbefore c hlt
    · exact hk

theorem up2Linear_checkedBy (n : Nat) :
    CheckedBy (NarrowRow t n) (up2Linear t n) (up2Linear (rangeChecked t) n) := by
  refine ((rangeChecked_checkedBy t 0).bind fun a => .bind_same _ fun d => (up2LinearCore_checkedBy t _ d 1).bind fun d =>
    (rangeChecked_checkedBy t ((n - 1) / 2)).bind fun b => .same (P := True) _ trivial).mono ?_
  rintro ⟨-, hcore, hlast, -⟩ c hc
  rcases Nat.lt_or_eq_of_le hc with hlt | rfl
  · exact hcore c hlt
  · exact hlast

theorem up2BilinearCore_checkedBy (k : Nat) (de : Row × Row) (o : Nat) :
    CheckedBy (∀ c < k, Narrow t c ∧ Narrow u c) (up2BilinearCore t u k de o)
      (up2BilinearCore (rangeChecked t) (rangeChecked u) k de o) := by
  induction k with
  | zero => exact .same _ nofun
  | succ k ih =>
    refine (ih.bind fun de => (rangeChecked_checkedBy t k).bind fun a => (rangeChecked_checkedBy t (k + 1)).bind fun b =>
      (rangeChecked_checkedBy u k).bind fun c => (rangeChecked_checkedBy u (k + 1)).bind fun f =>
      .same (P := True) _ trivial).mono ?_
    rintro ⟨hbefore, ht, -, hu, -, -⟩ c hc
    rcases Nat.lt_succ_iff_lt_or_eq.1 hc with hlt | rfl
    · exact hbefore c hlt
    · exact ⟨ht, hu⟩

theorem up2Bilinear_checkedBy (n : Nat) :
    CheckedBy (NarrowRow t n ∧ NarrowRow u n) (up2Bilinear t u n)
      (up2Bilinear (rangeChecked t) (rangeChecked u) n) := by
  refine ((rangeChecked_checkedBy t 0).bind fun a => (rangeChecked_checkedBy u 0).bind fun c => .bind_same _ fun d =>
    .bind_same _ fun e => (up2BilinearCore_checkedBy t u _ (d, e) 1).bind fun de =>
    (rangeChecked_checkedBy t ((n - 1) / 2)).bind fun b => (rangeChecked_checkedBy u ((n - 1) / 2)).bind fun f =>
    .same (P := True) _ trivial).mono ?_
  rintro ⟨-, -, hcore, ht, hu, -⟩
  have hrow (c : Nat) (hc : c ≤ (n - 1) / 2) : Narrow t c ∧ Narrow u c := by
    rcases Nat.lt_or_eq_of_le hc with hlt | rfl
    · exact hcore c hlt
    · exact ⟨ht, hu⟩
  exact ⟨fun c hc => (hrow c hc).1, fun c hc => (hrow c hc).2⟩

end

theorem planeFrom_checkedBy {f f' : Nat → Res Row} {P : Nat → Prop} (hf : ∀ j, CheckedBy (P j) (f j) (f' j)) (j n : Nat) :
    CheckedBy (∀ k < n, P (j + k)) (planeFrom f j n) (planeFrom f' j n) := by
  induction n generalizing j with
  | zero => exact .same _ nofun
  | succ n ih =>
    refine ((hf j).bind fun d => (ih (j + 1)).bind fun rest => .same (P := True) _ trivial).mono ?_
    rintro ⟨hfirst, hrest, -⟩ k hk
    cases k with
    | zero => exact hfirst
    | succ k =>
      rw [← Nat.succ_add_eq_add_succ]
      exact hrest k (by omega)

section
variable {op : ScaleOp} {pl : Planes} {m : FilterMode} {s : State} (src : Int → Reader)

theorem up2LinearRows_checkedBy (hsizes : LegalSizes pl) :
    CheckedBy (∀ r, checkedRow .up2Linear12 pl r → NarrowRow (src r) (dstWidth pl))
      (up2LinearRows (pathJob op pl m s) src) (up2LinearRows (pathJob op pl m s) fun r => rangeChecked (src r)) := by
  rw [up2LinearRows_eq hsizes, up2LinearRows_eq hsizes]
  refine (planeFrom_checkedBy (fun j => up2Linear_checkedBy _ _) 0 _).mono ?_
  rintro hrows r ⟨j, hj, rfl⟩
  simpa using hrows j hj

theorem up2BilinearPairs_checkedBy (jb : PathJob) (k : Nat) :
    CheckedBy (∀ r : Nat, 1 ≤ r → r ≤ k → NarrowRow (src r) (jobWd jb)) (up2BilinearPairs jb src k)
      (up2BilinearPairs jb (fun r => rangeChecked (src r)) k) := by
  induction k with
  | zero => exact .same _ fun r h1 h0 => absurd h1 (by omega)
  | succ k ih =>
    refine (ih.bind fun before => (up2Bilinear_checkedBy (src k) (src (k + 1)) (jobWd jb)).bind fun de =>
      .same (P := True) _ trivial).mono ?_
    rintro ⟨hbefore, ⟨-, hnext⟩, -⟩ r h1 hr
    rcases Nat.lt_or_eq_of_le hr with hlt | rfl
    · exact hbefore r h1 (by omega)
    · exact_mod_cast hnext

/-- Row 0 is read by the first edge row, every other row by the pair above it. -/
theorem up2BilinearRows_checkedBy :
    CheckedBy (∀ r, checkedRow .up2Bilinear12 pl r → NarrowRow (src r) (dstWidth pl))
      (up2BilinearRows (pathJob op pl m s) src) (up2BilinearRows (pathJob op pl m s) fun r => rangeChecked (src r)) := by
  refine ((up2Bilinear_checkedBy (src 0) (src 0) (dstWidth pl)).bind fun de =>
    (up2BilinearPairs_checkedBy src (pathJob op pl m s) (srcHeight pl - 1)).bind fun middle => (?_ : CheckedBy True _ _)).mono ?_
  · split
    · exact ((up2Bilinear_checkedBy _ _ _).bind fun de => .same (P := True) _ trivial).mono fun _ => trivial
    · exact .same _ trivial
  · rintro ⟨⟨hfirst, -⟩, hpairs, -⟩ r (hr : r < srcHeight pl)
    by_cases h0 : r = 0
    · subst h0
      exact hfirst
    · exact hpairs r (by omega) (by omega)

theorem rangeCheckedRows_error {jb : PathJob} {rows : (Int → Reader) → Res RowWrites} {w : RowWrites}
    (hplain : rows (jobRow jb) = .ok w)
    (hchecked : rows (fun r => rangeChecked (jobRow jb r)) = .error .range12) :
    rangeCheckedRows jb rows = .error .range12 := by
  rw [rangeCheckedRows, hplain, hchecked]
  rfl

/-- A wide sample in a row that a 12-bit path reads raises ERR_RANGE12, on every plane of the path's ratio (R243). -/
theorem pathRows_wide {p : PathCode} (hsizes : LegalSizes pl) (hratio : exactRatio p pl = true) {r c : Nat}
    (hr : checkedRow p pl r) (hc : c < srcWidth pl) (hwide : 4095 < srcSample op pl s.mem r c) :
    pathStep pl p m = noStep ∧ pathRows p (pathJob op pl m s) noStep = .error .range12 := by
  have hrow : r < srcHeight pl := checkedRow_inside hsizes hr
  have hnot (hwidth : srcWidth pl = (dstWidth pl + 1) / 2) :
      ¬ ∀ r, checkedRow p pl r → NarrowRow (jobRow (pathJob op pl m s) r) (dstWidth pl) := fun hall => by
    have := hall r hr c (by omega) _ (jobRow_ok op m s hrow hc)
    omega
  cases p
  case up2Linear12 =>
    have hwidth := srcWidth_of_doubles hsizes hratio
    have hplain := up2LinearRows_jobRow_ok (op := op) (m := m) (s := s) hsizes hwidth
    exact ⟨rfl, rangeCheckedRows_error hplain ((up2LinearRows_checkedBy _ hsizes).error hplain (hnot hwidth))⟩
  case up2Bilinear12 =>
    obtain ⟨hwidth, hheight⟩ := sizes_of_up2Bilinear (.inr rfl) hsizes hratio
    have hplain := up2BilinearRows_jobRow_ok (op := op) (m := m) (s := s) hsizes hwidth hheight
    exact ⟨rfl, rangeCheckedRows_error hplain ((up2BilinearRows_checkedBy _).error hplain (hnot hwidth))⟩
  all_goals exact hr.elim

theorem execPath_wide {p : PathCode} (hruns : pathRuns p op pl m s.cfg = true) (hwf : Memory.wf s.mem = true)
    (hund : undisturbed s = true) {r c : Nat} (hr : checkedRow p pl r) (hc : c < srcWidth pl)
    (hwide : 4095 < srcSample op pl s.mem r c) :
    ∃ mem, execPath p op pl m s = .next (raisedInPath .range12 (ownSelection p s) noStep mem s) ∧
      DstFreed op pl s mem := by
  obtain ⟨hstep, hrows⟩ := pathRows_wide (m := m) (legalSizes_of_pathRuns hruns) (exactRatio_of_pathRuns hruns) hr hc hwide
  rw [← hstep] at hrows ⊢
  exact execPath_raises hruns hwf hund hrows

end

/-- Settles O37: the plain rows answer, so that the checked rows raise ERR_RANGE12 and nothing else. -/
theorem wideSamplesRaiseRange12 : Obligations.WideSamplesRaiseRange12 := by
  unfold Obligations.WideSamplesRaiseRange12
  intro pl m s r c hwf hund hr hc hwide report
  refine ⟨fun hruns => ?_, fun hruns hchecked => ?_⟩
  · obtain ⟨mem, hexec, hmem⟩ := execPath_wide hruns hwf hund hr hc hwide
    exact ⟨_, hexec, rfl, rfl, rfl, rfl, hmem⟩
  · obtain ⟨mem, hexec, hmem⟩ := execPath_wide hruns hwf hund hchecked hc hwide
    exact ⟨_, hexec, rfl, rfl, rfl, rfl, hmem⟩

end Sys2Proof.Proofs.RunningErrors

/-! PROOFS. What a scaling command leaves whose path raises (R264, R267, R305, R307): the path that dispatch selects is in its
preconditions, so that a command raises where its P operation does. -/

namespace Sys2Proof.Proofs.CommandErrors

open Sys2Proof Sys2Proof.Machine Sys2Proof.Proofs.HostMemory Sys2Proof.Proofs.RunningPaths
  Sys2Proof.Proofs.DispatchPairs Sys2Proof.Proofs.RowStores Sys2Proof.Proofs.RunningErrors

/-! ### The selected path is in its preconditions (R140 to R155, R314) -/

section
variable {pl : Planes} {m : FilterMode}

theorem exactRatio_selectPath (pl : Planes) (m : FilterMode) :
    exactRatio (selectPath pl.srcW.toInt (srcHeight pl) pl.dstW.toInt pl.dstH.toInt m) pl = true := by
  unfold selectPath
  extract_lets down
  have rule {c : Prop} [Decidable c] {p q : PathCode} (hp : c → exactRatio p pl = true) (hq : exactRatio q pl = true) :
      exactRatio (if c then p else q) pl = true :=
    iteInduction (motive := fun r => exactRatio r pl = true) hp fun _ => hq
  refine rule (fun _ => rfl) (rule (fun _ => rfl) ?_)
  refine rule (fun down34 => down34.2) (rule (fun down2 => down2.2) ?_)
  refine rule (fun down38 => down38.2) (rule (fun down4 => down4.2.1) (rule (fun _ => rfl) ?_))
  refine rule (fun linear => linear.1) (rule (fun bilinear => ?_) ?_)
  · exact Bool.and_eq_true_iff.2 ⟨bilinear.1, bilinear.2.1⟩
  · exact rule (fun _ => rfl) (rule (fun _ => rfl) rfl)

theorem exactRatio_dispatch (op : ScaleOp) (pl : Planes) (f : FilterMode) :
    exactRatio (dispatch op pl f).path pl = true := by
  cases op
  case scale12 =>
    change exactRatio (select12 ..).path pl = true
    unfold select12
    refine iteInduction (motive := fun p => exactRatio p pl = true) (fun linear => linear.1) fun _ => ?_
    refine iteInduction (motive := fun p => exactRatio p pl = true) (fun bilinear => ?_) fun _ => ?_
    · exact Bool.and_eq_true_iff.2 ⟨bilinear.1, bilinear.2.1⟩
    · exact exactRatio_selectPath ..
  all_goals exact exactRatio_selectPath ..

theorem modeDefined_of_reachablePair {p : PathCode} (h : reachablePair p m = true) : modeDefined p m = true := by
  cases p
  case down4 | bilinearUp | bilinearDown => exact h
  all_goals rfl

/-- A command that passes its checks runs its path inside the path's preconditions (R265, R314). -/
theorem pathRuns_dispatch {cfg : Config} {op : ScaleOp} {f : FilterMode} (hpre : preCheck cfg op pl = none)
    (hpost : postCheck cfg op pl (dispatch op pl f).path = .runs) :
    pathRuns (dispatch op pl f).path op pl (dispatch op pl f).mode cfg = true :=
  pathRuns_iff.2 ⟨⟨hpre, exactRatio_dispatch op pl f, modeDefined_of_reachablePair (dispatch_reachablePair hpre f)⟩, hpost⟩

end

/-! ### The command (R266) -/

section
variable {op : ScaleOp} {f : FilterMode} {s : State}

/-- The state in which the selected path of a command runs (R266). -/
def selected (op : ScaleOp) (f : FilterMode) (s : State) : State :=
  setEffFilter (dispatch op (commandPlanes s) f).mode (clearStatus s)

theorem runCommand_of_preCheck (hpre : preCheck s.cfg op (commandPlanes s) = none) :
    runCommand op f s =
      endCommand
        (runPath (dispatch op (commandPlanes s) f).path op (commandPlanes s) (dispatch op (commandPlanes s) f).mode
          (selected op f s)).2
        (runPath (dispatch op (commandPlanes s) f).path op (commandPlanes s) (dispatch op (commandPlanes s) f).mode
          (selected op f s)).1 := by
  rcases runCommand_cases op f s with ⟨e, hfails, -⟩ | ⟨-, hr⟩
  · cases hpre.symm.trans hfails
  · exact hr

/-- What a command leaves whose path raises while it runs (R267, R300). -/
theorem runCommand_raises (hwf : Memory.wf s.mem = true) (hund : undisturbed s = true)
    (hpre : preCheck s.cfg op (commandPlanes s) = none)
    (hpost : postCheck s.cfg op (commandPlanes s) (dispatch op (commandPlanes s) f).path = .runs) {e : Err}
    {st : ScaleStep}
    (hstep : pathStep (commandPlanes s) (dispatch op (commandPlanes s) f).path (dispatch op (commandPlanes s) f).mode = st)
    (hrows : pathRows (dispatch op (commandPlanes s) f).path
      (pathJob op (commandPlanes s) (dispatch op (commandPlanes s) f).mode s) st = .error e) :
    ∃ mem, exec (commandInstr op f) s = .next (raisedInPath e (dispatch op (commandPlanes s) f) st mem s) ∧
      DstFreed op (commandPlanes s) s mem := by
  subst hstep
  obtain ⟨mem, hend, hmem⟩ := endCommand_scrambleDst (s := selected op f s) (e := e)
    (pathStep (commandPlanes s) (dispatch op (commandPlanes s) f).path (dispatch op (commandPlanes s) f).mode)
    hpost hwf hund
  refine ⟨mem, ?_, hmem⟩
  rw [exec_commandInstr, runCommand_of_preCheck hpre, runPath_of_error (s := selected op f s) hpost hrows]
  exact congrArg _ hend

theorem exec_selectInstr (op : ScaleOp) (pl : Planes) (f : FilterMode) (s : State) :
    exec (selectInstr op pl f) s = .next { s with result := .selection (dispatch op pl f) } := by
  cases op <;> rfl

end

/-- Settles O23: the two errors are those of the selected path's rows. -/
theorem commandReportsRunningErrors : Obligations.CommandReportsRunningErrors := by
  unfold Obligations.CommandReportsRunningErrors
  intro op f s hund hwf pl sel report
  refine ⟨exec_selectInstr op pl f s, fun hpre hpost => ?_⟩
  have hruns := pathRuns_dispatch hpre hpost
  have hsizes := legalSizes_of_preCheck hpre
  refine ⟨fun hvertical hheight hone => ?_, fun r c hr hc hwide => ?_⟩
  · have hstep := pathStep_vertical_overflow (m := sel.mode) hsizes hheight hone
    have hrows := verticalRows_overflow (op := op) (m := sel.mode) (s := s) hsizes hheight hone
    rw [hstep] at hrows
    refine runCommand_raises hwf hund hpre hpost ?_ ?_
    · exact hvertical ▸ hstep
    · rw [show (dispatch op (commandPlanes s) f).path = .vertical from hvertical]
      exact hrows
  · obtain ⟨hstep, hrows⟩ := pathRows_wide (m := sel.mode) hsizes (exactRatio_of_pathRuns hruns) hr hc hwide
    exact runCommand_raises hwf hund hpre hpost hstep hrows

end Sys2Proof.Proofs.CommandErrors

/-! PROOFS. The rows of a path cover its destination (R212): where a path answers, every output row is written, and over its
whole width. Its stores then leave a destination that does not depend on what memory held before. -/

namespace Sys2Proof.Proofs.PathCoverage

open Sys2Proof Sys2Proof.Machine Sys2Proof.Proofs.HostMemory Sys2Proof.Proofs.RunningPaths
  Sys2Proof.Proofs.PathCoordinates Sys2Proof.Proofs.RowStores Sys2Proof.Proofs.DoublingPaths
  Sys2Proof.Proofs.RunningErrors

/-! ### Computations all of whose answers have a property -/

/-- Where the computation answers, its answer has the property. -/
def Yields {α : Type} (P : α → Prop) (r : Res α) : Prop := ∀ v, r = .ok v → P v

section
variable {α β : Type} {P : α → Prop} {Q : β → Prop}

theorem Yields.ok {v : α} (h : P v) : Yields P (.ok v) := fun _ hv => Except.ok.inj hv ▸ h

theorem Yields.bind {r : Res α} {f : α → Res β} (hr : Yields P r) (hf : ∀ v, P v → Yields Q (f v)) :
    Yields Q (r >>= f) := by
  rcases r with e | v
  · exact nofun
  · exact hf v (hr v rfl)

theorem Yields.of_forall {r : Res α} {f : α → Res β} (hf : ∀ v, Yields Q (f v)) : Yields Q (r >>= f) :=
  Yields.bind (P := fun _ => True) (fun _ _ => trivial) fun v _ => hf v

end

/-! ### The width of a kernel's row -/

/-- The row has n samples. -/
def HasWidth (n : Nat) (d : Row) : Prop := d.length = n

/-- Both rows have n samples. -/
def BothHaveWidth (n : Nat) (de : Row × Row) : Prop := HasWidth n de.1 ∧ HasWidth n de.2

section
variable {n : Nat}

theorem rowOf_width {f : Nat → Res Nat} : Yields (HasWidth n) (rowOf n f) := fun _ => rowOf_length

theorem setAt_width {d : Row} (hd : HasWidth n d) (i v : Nat) : Yields (HasWidth n) (setAt d i v) := by
  unfold setAt
  split
  · exact .ok (List.length_set.trans hd)
  · exact nofun

theorem replicate_width (n : Nat) : HasWidth n (List.replicate n 0) := List.length_replicate

variable (t u : Reader)

theorem up2LinearCore_width {d : Row} (hd : HasWidth n d) (k o : Nat) :
    Yields (HasWidth n) (up2LinearCore t k d o) := by
  induction k with
  | zero => exact .ok hd
  | succ k ih =>
    exact ih.bind fun d hd => .of_forall fun a => .of_forall fun b => (setAt_width hd _ _).bind fun d hd =>
      setAt_width hd _ _

theorem up2Linear_width : Yields (HasWidth n) (up2Linear t n) :=
  .of_forall fun _ => (setAt_width (replicate_width n) _ _).bind fun _ hd => (up2LinearCore_width t hd _ _).bind
    fun _ hd => .of_forall fun _ => setAt_width hd _ _

theorem up2BilinearCore_width {de : Row × Row} (hde : BothHaveWidth n de) (k o : Nat) :
    Yields (BothHaveWidth n) (up2BilinearCore t u k de o) := by
  induction k with
  | zero => exact .ok hde
  | succ k ih =>
    exact ih.bind fun _ hde => .of_forall fun _ => .of_forall fun _ => .of_forall fun _ => .of_forall fun _ =>
      (setAt_width hde.1 _ _).bind fun _ hd => (setAt_width hd _ _).bind fun _ hd =>
      (setAt_width hde.2 _ _).bind fun _ he => (setAt_width he _ _).bind fun _ he => .ok ⟨hd, he⟩

theorem up2Bilinear_width : Yields (BothHaveWidth n) (up2Bilinear t u n) :=
  .of_forall fun _ => .of_forall fun _ => (setAt_width (replicate_width n) _ _).bind fun _ hd =>
    (setAt_width (replicate_width n) _ _).bind fun _ he => (up2BilinearCore_width t u ⟨hd, he⟩ _ _).bind fun _ hde =>
    .of_forall fun _ => .of_forall fun _ => (setAt_width hde.1 _ _).bind fun _ hd =>
    (setAt_width hde.2 _ _).bind fun _ he => .ok ⟨hd, he⟩

end

/-! ### The rows of a path -/

/-- Output row r is among the writes, n samples wide. -/
def WritesRow (n : Nat) (w : RowWrites) (r : Nat) : Prop := ∃ d, (r, d) ∈ w ∧ HasWidth n d

/-- Every output row is written over its whole width. -/
def Covers (pl : Planes) (w : RowWrites) : Prop := ∀ r < dstHeight pl, WritesRow (dstWidth pl) w r

theorem WritesRow.mono {n r : Nat} {v w : RowWrites} (h : WritesRow n v r) (hsub : v ⊆ w) : WritesRow n w r := by
  obtain ⟨d, hd, hwidth⟩ := h
  exact ⟨d, hsub hd, hwidth⟩

/-- Writes of the rows below, and one more, are writes of the rows up to it. -/
theorem writesRow_cons {n j k : Nat} {d : Row} {w : RowWrites} (hd : HasWidth n d)
    (hw : ∀ i < k, WritesRow n w (j + 1 + i)) : ∀ i < k + 1, WritesRow n ((j, d) :: w) (j + i) := by
  intro i hi
  cases i with
  | zero => exact ⟨d, List.mem_cons_self, hd⟩
  | succ i =>
    rw [← Nat.succ_add_eq_add_succ]
    exact (hw i (by omega)).mono (List.subset_cons_self _ _)

theorem planeFrom_writes {n : Nat} {f : Nat → Res Row} (hf : ∀ j, Yields (HasWidth n) (f j)) (j k : Nat) :
    Yields (fun w => ∀ i < k, WritesRow n w (j + i)) (planeFrom f j k) := by
  induction k generalizing j with
  | zero => exact .ok nofun
  | succ k ih => exact (hf j).bind fun d hd => (ih (j + 1)).bind fun w hw => .ok (writesRow_cons hd hw)

section
variable {op : ScaleOp} {pl : Planes} {m : FilterMode} {s : State} {st : ScaleStep}

theorem planeOf_covers {f : Nat → Res Row} (hf : ∀ j, Yields (HasWidth (dstWidth pl)) (f j)) :
    Yields (Covers pl) (planeOf (pathJob op pl m s) f) := fun w hw r hr => by
  simpa using planeFrom_writes hf 0 _ w hw r hr

theorem horizontalFilter_width (t : Reader) :
    Yields (HasWidth (dstWidth pl)) (horizontalFilter (pathJob op pl m s) st t) := by
  unfold horizontalFilter
  split
  · exact rowOf_width
  · split <;> exact rowOf_width

theorem down34K0_width {a b : Int} : Yields (HasWidth (dstWidth pl)) (down34K0 (pathJob op pl m s) a b) := by
  unfold down34K0
  split <;> exact rowOf_width

theorem down34K1_width {a b : Int} : Yields (HasWidth (dstWidth pl)) (down34K1 (pathJob op pl m s) a b) := by
  unfold down34K1
  split <;> exact rowOf_width

theorem down38K3_width {a b c : Int} : Yields (HasWidth (dstWidth pl)) (down38K3 (pathJob op pl m s) a b c) := by
  unfold down38K3
  split <;> exact rowOf_width

theorem down38K2_width {a b : Int} : Yields (HasWidth (dstWidth pl)) (down38K2 (pathJob op pl m s) a b) := by
  unfold down38K2
  split <;> exact rowOf_width

theorem down34Rows_covers : Yields (Covers pl) (down34Rows (pathJob op pl m s)) := by
  refine planeOf_covers fun j => ?_
  dsimp only
  split
  · split
    · exact down34K0_width
    · exact down34K1_width
    · exact down34K0_width
  · split
    · split
      · exact down34K0_width
      · exact down34K1_width
    · exact down34K0_width

theorem down38Rows_covers : Yields (Covers pl) (down38Rows (pathJob op pl m s)) := by
  refine planeOf_covers fun j => ?_
  dsimp only
  split
  · split
    · exact down38K3_width
    · exact down38K3_width
    · exact down38K2_width
  · split
    · split <;> exact down38K3_width
    · exact down38K3_width

theorem addCols_width {br : BoxRound} {sw : SampleWidth} {acc : Row} {bh n : Nat} {x dx : Int} :
    Yields (HasWidth n) (addCols br sw acc bh n x dx) := by
  unfold addCols
  split <;> exact rowOf_width

theorem boxRowsFrom_writes (k j : Nat) (y : Int) :
    Yields (fun w => ∀ i < k, WritesRow (dstWidth pl) w (j + i)) (boxRowsFrom (pathJob op pl m s) st k j y) := by
  induction k generalizing j y with
  | zero => exact .ok nofun
  | succ k ih =>
    exact .of_forall fun _ => addCols_width.bind fun _ hd => (ih _ _).bind fun _ hw => .ok (writesRow_cons hd hw)

theorem boxRows_covers : Yields (Covers pl) (boxRows (pathJob op pl m s) st) := fun w hw r hr => by
  simpa using boxRowsFrom_writes _ 0 _ w hw r hr

theorem bilinearUpRows_covers : Yields (Covers pl) (bilinearUpRows (pathJob op pl m s) st) := by
  refine planeOf_covers fun j => ?_
  split
  · refine (horizontalFilter_width _).bind fun d hd => ?_
    split
    · exact .ok hd
    · exact .of_forall fun _ => rowOf_width
  · exact horizontalFilter_width _

theorem bilinearDownRows_covers : Yields (Covers pl) (bilinearDownRows (pathJob op pl m s) st) := by
  refine planeOf_covers fun j => ?_
  dsimp only
  split
  · exact .of_forall fun _ => horizontalFilter_width _
  · exact horizontalFilter_width _

theorem up2LinearRows_covers (hsizes : LegalSizes pl) (src : Int → Reader) :
    Yields (Covers pl) (up2LinearRows (pathJob op pl m s) src) := by
  rw [up2LinearRows_eq hsizes]
  exact planeOf_covers fun j => up2Linear_width _

theorem up2BilinearPairs_writes (src : Int → Reader) (k : Nat) :
    Yields (fun w => ∀ i < 2 * k, WritesRow (dstWidth pl) w (1 + i)) (up2BilinearPairs (pathJob op pl m s) src k) := by
  induction k with
  | zero => exact .ok nofun
  | succ k ih =>
    refine ih.bind fun before hbefore => (up2Bilinear_width _ _).bind fun de hde => .ok fun i hi => ?_
    obtain hlt | rfl | rfl : i < 2 * k ∨ i = 2 * k ∨ i = 2 * k + 1 := by omega
    · exact (hbefore i hlt).mono (List.subset_append_left _ _)
    · exact ⟨de.1, by simp [Nat.add_comm], hde.1⟩
    · exact ⟨de.2, by simp [show 1 + (2 * k + 1) = 2 * k + 2 by omega], hde.2⟩

/-- The edge rows and the pairs between them are all output rows, as the source has half as many. -/
theorem up2BilinearRows_covers (hheight : srcHeight pl = (dstHeight pl + 1) / 2) (src : Int → Reader) :
    Yields (Covers pl) (up2BilinearRows (pathJob op pl m s) src) := by
  refine (up2Bilinear_width _ _).bind fun de hde =>
    (up2BilinearPairs_writes src (srcHeight pl - 1)).bind fun middle hmiddle => ?_
  have hbefore (r : Nat) (hr : r < 1 + 2 * (srcHeight pl - 1)) :
      WritesRow (dstWidth pl) ((0, de.1) :: (0, de.2) :: middle) r := by
    rcases Nat.eq_zero_or_pos r with rfl | hpos
    · exact ⟨de.1, List.mem_cons_self, hde.1⟩
    · obtain ⟨i, rfl⟩ := Nat.exists_eq_add_of_le hpos
      exact (hmiddle i (by omega)).mono fun _ hmem => List.mem_cons_of_mem _ (List.mem_cons_of_mem _ hmem)
  dsimp only
  split
  · refine (up2Bilinear_width _ _).bind fun de' hde' => .ok fun r hr => ?_
    by_cases hlast : r = dstHeight pl - 1
    · subst hlast
      exact ⟨de'.1, List.mem_append_right _ List.mem_cons_self, hde'.1⟩
    · exact (hbefore r (by omega)).mono (List.subset_append_left _ _)
  · next hodd =>
    change ¬ dstHeight pl % 2 = 0 at hodd
    exact .ok fun r hr => hbefore r (by omega)

theorem rangeCheckedRows_covers {rows : (Int → Reader) → Res RowWrites} {jb : PathJob}
    (h : Yields (Covers pl) (rows (jobRow jb))) : Yields (Covers pl) (rangeCheckedRows jb rows) :=
  h.bind fun _ hw => .of_forall fun _ => .ok hw

/-- Where a path of its ratio answers, every output row is written over its whole width. -/
theorem pathRows_covers {p : PathCode} (hsizes : LegalSizes pl) (hratio : exactRatio p pl = true) :
    Yields (Covers pl) (pathRows p (pathJob op pl m s) st) := by
  cases p with
  | copy => exact planeOf_covers fun _ => rowOf_width
  | vertical => exact planeOf_covers fun _ => rowOf_width
  | down34 => exact down34Rows_covers
  | down2 => exact planeOf_covers fun _ => by split <;> exact rowOf_width
  | down38 => exact down38Rows_covers
  | down4 => exact planeOf_covers fun _ => by split <;> exact rowOf_width
  | box => exact boxRows_covers
  | up2Linear => exact up2LinearRows_covers hsizes _
  | up2Bilinear => exact up2BilinearRows_covers (sizes_of_up2Bilinear (.inl rfl) hsizes hratio).2 _
  | bilinearUp => exact bilinearUpRows_covers
  | bilinearDown => exact bilinearDownRows_covers
  | simple => exact planeOf_covers fun _ => rowOf_width
  | up2Linear12 => exact rangeCheckedRows_covers (up2LinearRows_covers hsizes _)
  | up2Bilinear12 =>
    exact rangeCheckedRows_covers (up2BilinearRows_covers (sizes_of_up2Bilinear (.inr rfl) hsizes hratio).2 _)

end

/-! ### The stored destination -/

/-- Rows that cover the destination leave the same samples in it, whatever memory held. -/
theorem dstSample_storeRows_eq {cfg : Config} {p : PathCode} {op : ScaleOp} {pl : Planes}
    (hpost : postCheck cfg op pl p = .runs) {w : RowWrites} (hw : Covers pl w) {mem mem' : Memory}
    (hmem : Memory.wf mem = true) (hmem' : Memory.wf mem' = true) {r c : Nat} (hr : r < dstHeight pl)
    (hc : c < dstWidth pl) :
    dstSample op pl (storeRows op pl w mem) r c = dstSample op pl (storeRows op pl w mem') r c := by
  refine loadSample_congr (dstBytes_cases op) fun a hlo hhi => ?_
  have hstart := dstAddr_nonneg (spansInSpace_of_runs hpost) hr c
  have hin : inSpans (dstSpans op pl) a = true :=
    (Footprints.inSpans_dstSpans_iff op pl a).2 ⟨r, c, hr, hc, by omega, by omega⟩
  have hspace := ((memValid_iff cfg a).1 (memValid_of_runs hpost hin)).1
  obtain ⟨d, hd, hwidth⟩ := hw r hr
  obtain ⟨v, hv⟩ := determines_storeRows hd (k := c) (lt_of_lt_of_eq hc hwidth.symm) hlo hhi hspace
  rw [hv mem hmem, hv mem' hmem']

end Sys2Proof.Proofs.PathCoverage

/-! PROOFS. The vertical mirror (R64, R142, R254): the mirrored source has the sizes, the footprint and the dispatch of the
source that is not, and its rows are those of the memory with the rows reversed. -/

namespace Sys2Proof.Proofs.VerticalMirror

open Sys2Proof Sys2Proof.Machine Sys2Proof.Proofs.HostMemory Sys2Proof.Proofs.RunningPaths
  Sys2Proof.Proofs.DispatchPairs Sys2Proof.Proofs.RowStores Sys2Proof.Proofs.RunningErrors
  Sys2Proof.Proofs.CommandErrors Sys2Proof.Proofs.PathCoverage

/-! ### Jobs that read and write alike -/

/-- The jobs have the same source rows, the same sizes and the same parameters, wherever the source lies. -/
structure SameView (jb jb' : PathJob) : Prop where
  cfg : jb.cfg = jb'.cfg
  op : jb.op = jb'.op
  mode : jb.mode = jb'.mode
  row : jobRow jb = jobRow jb'
  width : jobW jb = jobW jb'
  height : jobH jb = jobH jb'
  dstWidth : jobWd jb = jobWd jb'
  dstHeight : jobHd jb = jobHd jb'
  maxY : verticalMaxY jb.planes = verticalMaxY jb'.planes

section
variable {jb jb' : PathJob} (h : SameView jb jb')
include h

theorem planeOf_view (f : Nat → Res Row) : planeOf jb f = planeOf jb' f := by
  rw [planeOf, planeOf, h.dstHeight]

theorem horizontalFilter_view : horizontalFilter jb = horizontalFilter jb' := by
  funext st t
  unfold horizontalFilter
  rw [h.mode, h.op, h.cfg, h.dstWidth]

theorem accumulate_view (y : Int) (k : Nat) : accumulate jb y k = accumulate jb' y k := by
  induction k with
  | zero => rw [accumulate, accumulate, h.width]
  | succ k ih => rw [accumulate, accumulate, ih, h.op, h.row, h.width]

theorem boxRowsFrom_view (st : ScaleStep) (n j : Nat) (y : Int) :
    boxRowsFrom jb st n j y = boxRowsFrom jb' st n j y := by
  induction n generalizing j y with
  | zero => rfl
  | succ n ih => simp only [boxRowsFrom, ih, accumulate_view h, h.height, h.op, h.cfg, h.dstWidth]

theorem up2BilinearPairs_view (src : Int → Reader) (k : Nat) :
    up2BilinearPairs jb src k = up2BilinearPairs jb' src k := by
  induction k with
  | zero => rfl
  | succ k ih => rw [up2BilinearPairs, up2BilinearPairs, ih, h.dstWidth]

theorem up2LinearRows_view : up2LinearRows jb = up2LinearRows jb' := by
  funext src
  simp only [up2LinearRows, planeOf_view h, h.height, h.dstWidth, h.dstHeight]

theorem up2BilinearRows_view : up2BilinearRows jb = up2BilinearRows jb' := by
  funext src
  simp only [up2BilinearRows, up2BilinearPairs_view h, h.height, h.dstWidth, h.dstHeight]

theorem rangeCheckedRows_view (rows : (Int → Reader) → Res RowWrites) :
    rangeCheckedRows jb rows = rangeCheckedRows jb' rows := by
  rw [rangeCheckedRows, rangeCheckedRows, h.row]

/-- The rows of a path depend on the source rows, the sizes and the parameters only. -/
theorem pathRows_view (p : PathCode) (st : ScaleStep) : pathRows p jb st = pathRows p jb' st := by
  cases p with
  | copy => simp only [pathRows, copyRows, planeOf_view h, h.row, h.dstWidth]
  | vertical => simp only [pathRows, verticalRows, planeOf_view h, h.row, h.dstWidth, h.mode, h.maxY]
  | down34 => simp only [pathRows, down34Rows, down34K0, down34K1, planeOf_view h, h.row, h.dstWidth, h.dstHeight, h.mode]
  | down2 => simp only [pathRows, down2Rows, planeOf_view h, h.row, h.dstWidth, h.mode]
  | down38 => simp only [pathRows, down38Rows, down38K3, down38K2, planeOf_view h, h.row, h.dstWidth, h.dstHeight, h.mode]
  | down4 => simp only [pathRows, down4Rows, planeOf_view h, h.row, h.dstWidth, h.mode]
  | box => simp only [pathRows, boxRows, boxRowsFrom_view h, h.dstHeight]
  | up2Linear => simp only [pathRows, up2LinearRows_view h, h.row]
  | up2Bilinear => simp only [pathRows, up2BilinearRows_view h, h.row]
  | bilinearUp =>
    simp only [pathRows, bilinearUpRows, planeOf_view h, horizontalFilter_view h, h.row, h.height, h.dstWidth, h.mode]
  | bilinearDown =>
    simp only [pathRows, bilinearDownRows, planeOf_view h, horizontalFilter_view h, h.row, h.height, h.width, h.mode]
  | simple => simp only [pathRows, simpleRows, planeOf_view h, h.row, h.dstWidth]
  | up2Linear12 => simp only [pathRows, rangeCheckedRows_view h, up2LinearRows_view h]
  | up2Bilinear12 => simp only [pathRows, rangeCheckedRows_view h, up2BilinearRows_view h]

end

/-! ### The planes without the mirror -/

/-- The planes with the sign of SRC_H reversed (R25). -/
def unmirrored (pl : Planes) : Planes := { pl with srcH := -pl.srcH }

section
variable {pl : Planes}

theorem toInt_neg_of_small {x : BitVec 32} (hsmall : x.toInt.natAbs ≤ 32768) : (-x).toInt = -x.toInt := by
  rw [BitVec.toInt_neg]
  exact Int.bmod_eq_of_le (by omega) (by omega)

variable (hsizes : LegalSizes pl)
include hsizes

theorem srcH_unmirrored : (unmirrored pl).srcH.toInt = -pl.srcH.toInt := toInt_neg_of_small hsizes.srcHeight_le

theorem srcHeight_unmirrored : srcHeight (unmirrored pl) = srcHeight pl := by
  rw [srcHeight, srcH_unmirrored hsizes, Int.natAbs_neg]
  rfl

theorem legalSizes_unmirrored : LegalSizes (unmirrored pl) :=
  { hsizes with
    srcHeight_pos := srcHeight_unmirrored hsizes ▸ hsizes.srcHeight_pos
    srcHeight_le := srcHeight_unmirrored hsizes ▸ hsizes.srcHeight_le }

theorem pathStep_unmirrored (p : PathCode) (m : FilterMode) : pathStep (unmirrored pl) p m = pathStep pl p m := by
  unfold pathStep
  rw [srcHeight_unmirrored hsizes]
  rfl

theorem verticalMaxY_unmirrored : verticalMaxY (unmirrored pl) = verticalMaxY pl := by
  unfold verticalMaxY ratioOne
  rw [srcHeight_unmirrored hsizes]
  rfl

theorem srcSpans_unmirrored (op : ScaleOp) : srcSpans op (unmirrored pl) = srcSpans op pl := by
  unfold srcSpans
  rw [srcHeight_unmirrored hsizes]
  rfl

theorem reduce_unmirrored (f : FilterMode) :
    reduce (unmirrored pl).srcW.toInt (unmirrored pl).srcH.toInt (unmirrored pl).dstW.toInt (unmirrored pl).dstH.toInt f =
      reduce pl.srcW.toInt pl.srcH.toInt pl.dstW.toInt pl.dstH.toInt f := by
  rw [srcH_unmirrored hsizes]
  unfold reduce
  rw [Int.natAbs_neg]
  rfl

/-- Dispatch looks at the height only, but for the orientation it reports (R142). -/
theorem dispatch_unmirrored (op : ScaleOp) (f : FilterMode) :
    (dispatch op (unmirrored pl) f).path = (dispatch op pl f).path ∧
    (dispatch op (unmirrored pl) f).mode = (dispatch op pl f).mode := by
  have hmode := reduce_unmirrored hsizes f
  have hheight : ((unmirrored pl).srcH.toInt.natAbs : Int) = pl.srcH.toInt.natAbs :=
    congrArg Nat.cast (srcHeight_unmirrored hsizes)
  cases op
  case scale12 =>
    refine ⟨?_, hmode⟩
    simp only [dispatch, select12, hmode, hheight]
    rfl
  all_goals
    refine ⟨?_, hmode⟩
    simp only [dispatch, select, hmode, hheight]
    rfl

/-! ### The checks -/

theorem preCheck_unmirrored {cfg : Config} {op : ScaleOp} (hpre : preCheck cfg op pl = none) :
    preCheck cfg op (unmirrored pl) = none := by
  have hdims : dimsLegal cfg (unmirrored pl) = dimsLegal cfg pl := by
    unfold dimsLegal
    rw [srcHeight_unmirrored hsizes, srcH_unmirrored hsizes]
    simp only [ne_eq, neg_eq_zero]
    rfl
  unfold preCheck at hpre ⊢
  rw [hdims]
  exact hpre

end

/-- Planes with one base share their first byte. -/
theorem spansMeet_of_sameBase (op : ScaleOp) {pl : Planes} (hsizes : LegalSizes pl) (hbase : pl.srcBase = pl.dstBase) :
    spansMeet (srcSpans op pl) (dstSpans op pl) = true := by
  have hsrc := hsizes.srcWidth_pos
  have hdst := hsizes.dstWidth_pos
  have haddr : srcPhysAddr op pl 0 0 = dstAddr op pl 0 0 := by simp [srcPhysAddr, dstAddr, hbase]
  refine List.any_eq_true.2 ⟨_, List.mem_map.2 ⟨0, List.mem_range.2 hsizes.srcHeight_pos, rfl⟩,
    List.any_eq_true.2 ⟨_, List.mem_map.2 ⟨0, List.mem_range.2 hsizes.dstHeight_pos, rfl⟩, decide_eq_true ?_⟩⟩
  rcases srcBytes_cases op with hs | hs <;> rcases dstBytes_cases op with hd | hd <;> simp only [haddr, hs, hd] <;> omega

/-- The mirror takes no part in the checks: where an identical-plane COPY would end at once without it, the planes overlap
(R69). -/
theorem postCheck_unmirrored {cfg : Config} {op : ScaleOp} {pl : Planes} {p : PathCode} (hsizes : LegalSizes pl)
    (hpost : postCheck cfg op pl p = .runs) : postCheck cfg op (unmirrored pl) p = .runs := by
  obtain ⟨hbox, -, hpass, hscratch⟩ := postCheck_runs_iff.1 hpost
  have hcopy : ¬ copyShortCircuit op (unmirrored pl) p := fun hshort => by
    simp only [copyShortCircuit, Bool.and_eq_true, decide_eq_true_eq] at hshort
    obtain ⟨⟨-, hbase⟩, -⟩ := hshort
    obtain ⟨-, -, hoverlap⟩ := hpass
    exact hoverlap (.inl (spansMeet_of_sameBase op hsizes hbase))
  have hpass' : planesPass cfg op (unmirrored pl) := by
    unfold planesPass
    rw [srcSpans_unmirrored hsizes]
    exact hpass
  exact postCheck_runs_iff.2 ⟨hbox, hcopy, hpass', hscratch⟩

/-! ### The mirrored source and the reversed memory -/

/-- The memories hold the unmirrored source with its rows in reversed order. -/
def RowsReversed (op : ScaleOp) (pl : Planes) (mem mem' : Memory) : Prop :=
  ∀ r c : Nat, r < srcHeight pl → c < srcWidth pl →
    srcSample op (unmirrored pl) mem' ((srcHeight pl - 1 - r : Nat) : Int) c = srcSample op (unmirrored pl) mem r c

section
variable {op : ScaleOp} {pl : Planes} {m : FilterMode} {s t : State} (hsizes : LegalSizes pl) (hneg : pl.srcH.toInt < 0)
include hsizes hneg

/-- A mirrored row is a row of the memory, counted from the last (R64). -/
theorem srcSample_mirrored (mem : Memory) (r c : Nat) :
    srcSample op pl mem r c = srcSample op (unmirrored pl) mem ((srcHeight pl - 1 - r : Nat) : Int) c := by
  have hmirrored : physRow pl r = srcHeight pl - 1 - r := if_neg (by omega)
  have hstraight (k : Nat) : physRow (unmirrored pl) k = k := if_pos (by rw [srcH_unmirrored hsizes]; omega)
  simp only [srcSample, srcAddr, Int.toNat_natCast, hmirrored, hstraight]
  rfl

variable (hrows : RowsReversed op pl s.mem t.mem)
include hrows

theorem jobRow_mirrored : jobRow (pathJob op pl m s) = jobRow (pathJob op (unmirrored pl) m t) := by
  have hheight := srcHeight_unmirrored hsizes
  funext r c
  by_cases hin : (0 ≤ r ∧ r < srcHeight pl) ∧ 0 ≤ c ∧ c < srcWidth pl
  · obtain ⟨⟨hr0, hr⟩, hc0, hc⟩ := hin
    lift r to Nat using hr0
    lift c to Nat using hc0
    rw [Nat.cast_lt] at hr hc
    have hback := hrows (srcHeight pl - 1 - r) c (by omega) hc
    rw [show srcHeight pl - 1 - (srcHeight pl - 1 - r) = r by omega] at hback
    rw [jobRow_ok op m s hr hc, jobRow_ok (pl := unmirrored pl) op m t (hheight.symm ▸ hr) hc,
      srcSample_mirrored hsizes hneg, hback]
  · have hout : r < 0 ∨ srcHeight pl ≤ r ∨ c < 0 ∨ srcWidth pl ≤ c := by omega
    exact (srcRow_oob op pl s.mem hout).trans (srcRow_oob op (unmirrored pl) t.mem (hheight.symm ▸ hout)).symm

theorem sameView_mirrored (hcfg : s.cfg = t.cfg) :
    SameView (pathJob op pl m s) (pathJob op (unmirrored pl) m t) where
  cfg := hcfg
  op := rfl
  mode := rfl
  row := jobRow_mirrored hsizes hneg hrows
  width := rfl
  height := (srcHeight_unmirrored hsizes).symm
  dstWidth := rfl
  dstHeight := rfl
  maxY := (verticalMaxY_unmirrored hsizes).symm

theorem pathWrites_mirrored (hcfg : s.cfg = t.cfg) (p : PathCode) :
    pathWrites p (pathJob op (unmirrored pl) m t) (pathStep (unmirrored pl) p m) =
      pathWrites p (pathJob op pl m s) (pathStep pl p m) := by
  rw [pathWrites, pathWrites, pathStep_unmirrored hsizes,
    pathRows_view (sameView_mirrored hsizes hneg hrows hcfg)]
  rfl

end

/-! ### The end of a command whose path runs -/

/-- STATUS reports the error, the path and the mode of a command that has ended (R33, R34). -/
structure Reports (e : Option Err) (p : PathCode) (m : FilterMode) (s : State) : Prop where
  phase : s.phase = .idle
  done : s.done = true
  err : s.err = e
  path : s.path = some p
  mode : s.effFilter = m

theorem Reports.statusWord_eq {e : Option Err} {p : PathCode} {m : FilterMode} {s t : State} (hs : Reports e p m s)
    (ht : Reports e p m t) : statusWord s = statusWord t := by
  unfold statusWord isBusy
  rw [hs.phase, hs.done, hs.err, hs.path, hs.mode, ht.phase, ht.done, ht.err, ht.path, ht.mode]

theorem endCommand_reports {p : PathCode} {m : FilterMode} (e : Option Err) {s : State} (hund : undisturbed s = true)
    (hpath : s.path = some p) (hmode : s.effFilter = m) :
    Reports e p m (endCommand e s) ∧ (endCommand e s).mem = s.mem := by
  rw [endCommand_undisturbed e hund]
  exact ⟨⟨rfl, rfl, rfl, hpath, hmode⟩, rfl⟩

theorem covers_of_pathWrites {p : PathCode} {op : ScaleOp} {pl : Planes} {m : FilterMode} {s : State} {st : ScaleStep}
    (hsizes : LegalSizes pl) (hratio : exactRatio p pl = true) :
    Yields (Covers pl) (pathWrites p (pathJob op pl m s) st) :=
  (pathRows_covers hsizes hratio).bind fun w hw => by
    split
    · exact .ok hw
    · exact nofun

/-- The command stores its path's rows, or reports the error that they raised. -/
theorem runCommand_runs {op : ScaleOp} {f : FilterMode} {s : State} {p : PathCode} {m : FilterMode}
    (hund : undisturbed s = true) (hpre : preCheck s.cfg op (commandPlanes s) = none)
    (hp : (dispatch op (commandPlanes s) f).path = p) (hm : (dispatch op (commandPlanes s) f).mode = m)
    (hpost : postCheck s.cfg op (commandPlanes s) p = .runs) {r : Res RowWrites}
    (hwrites : pathWrites p (pathJob op (commandPlanes s) m s) (pathStep (commandPlanes s) p m) = r) :
    (∃ w, r = .ok w ∧ Reports none p m (runCommand op f s) ∧
      (runCommand op f s).mem = storeRows op (commandPlanes s) w s.mem) ∨
    ∃ e, r = .error e ∧ Reports (some e) p m (runCommand op f s) := by
  subst hp hm hwrites
  rw [runCommand_of_preCheck hpre]
  rcases runPath_cases (dispatch op (commandPlanes s) f).path op (commandPlanes s) (dispatch op (commandPlanes s) f).mode
    (selected op f s) with ⟨e, hfails, -⟩ | ⟨hshort, -⟩ | ⟨w, -, hw, hr⟩ | ⟨e, -, he, hr⟩
  · cases hpost.symm.trans hfails
  · cases hpost.symm.trans hshort
  · rw [hr]
    exact .inl ⟨w, hw, endCommand_reports none hund rfl rfl⟩
  · rw [hr]
    exact .inr ⟨e, he, And.left (endCommand_reports (some e) hund rfl rfl)⟩

theorem storeRow_unmirrored (op : ScaleOp) (pl : Planes) (r c : Nat) (d : Row) (mem : Memory) :
    storeRow op (unmirrored pl) r c d mem = storeRow op pl r c d mem := by
  induction d generalizing c mem with
  | nil => rfl
  | cons v rest ih => exact ih (c + 1) _

/-- The stores do not look at the source. -/
theorem storeRows_unmirrored (op : ScaleOp) (pl : Planes) (w : RowWrites) (mem : Memory) :
    storeRows op (unmirrored pl) w mem = storeRows op pl w mem := by
  induction w generalizing mem with
  | nil => rfl
  | cons rd rest ih =>
    rw [storeRows, storeRow_unmirrored]
    exact ih _

/-- Settles O40: the two commands have the same rows, which cover the destination. -/
theorem verticalMirrorReversesRows : Obligations.VerticalMirrorReversesRows := by
  unfold Obligations.VerticalMirrorReversesRows
  intro op f s t hunds hundt hwfs hwft hcfg pl up hneg hup hpre hpost hrows
  have hplanes : commandPlanes t = unmirrored (commandPlanes s) := hup
  have hsizes : LegalSizes (commandPlanes s) := legalSizes_of_preCheck hpre
  obtain ⟨hpath, hmode⟩ := dispatch_unmirrored hsizes op f
  have hpre' := preCheck_unmirrored hsizes hpre
  have hpost' := postCheck_unmirrored hsizes hpost
  have hreversed : RowsReversed op (commandPlanes s) s.mem t.mem := by
    dsimp only [up] at hrows
    rw [hplanes] at hrows
    exact hrows
  have hwrites := pathWrites_mirrored (m := (dispatch op pl f).mode) hsizes hneg hreversed hcfg (dispatch op pl f).path
  rw [hcfg] at hpre' hpost'
  rw [← hplanes] at hpath hmode hpre' hpost' hwrites
  refine ⟨_, _, exec_commandInstr op f s, exec_commandInstr op f t, ?_⟩
  rcases runCommand_runs hunds hpre rfl rfl hpost rfl with ⟨w, hw, hs, hmems⟩ | ⟨e, he, hs⟩
  · rcases runCommand_runs hundt hpre' hpath hmode hpost' hwrites with ⟨w', hw', ht, hmemt⟩ | ⟨e, he, -⟩
    · cases hw.symm.trans hw'
      refine ⟨hs.statusWord_eq ht, fun _ r c hr hc => ?_⟩
      have hcover := covers_of_pathWrites hsizes (exactRatio_dispatch op pl f) w hw
      rw [hmems, hmemt, hplanes, storeRows_unmirrored]
      exact dstSample_storeRows_eq hpost hcover hwfs hwft hr hc
    · cases hw.symm.trans he
  · rcases runCommand_runs hundt hpre' hpath hmode hpost' hwrites with ⟨w, hw, -⟩ | ⟨e', he', ht⟩
    · cases he.symm.trans hw
    · cases he.symm.trans he'
      refine ⟨hs.statusWord_eq ht, fun hnone => ?_⟩
      cases hs.err.symm.trans hnone

end Sys2Proof.Proofs.VerticalMirror

/-! PROOFS. The frame of a command (R37, R61, R260, R267): a scaling command keeps the host's registers and every byte outside
its destination footprint, and NOP keeps all but STATUS and STEP_*. -/

namespace Sys2Proof.Proofs.CommandFrames

open Sys2Proof Sys2Proof.Machine Sys2Proof.Proofs.StateInvariant Sys2Proof.Proofs.HostMemory
  Sys2Proof.Proofs.ReservedCommands

/-! ### The bytes that a command keeps -/

section
variable {op : ScaleOp} {s : State} {a : Nat}

theorem not_inSpans_of_not_mayChange (ha : mayChange op s a = false) :
    inSpans (dstSpans op (commandPlanes s)) a = false :=
  (Bool.or_eq_false_iff.1 ha).1

theorem not_inSpans_of_disturbed (ha : mayChange op s a = false) {c : Latched} (hphase : s.phase = .busy c true)
    {o : ScaleOp} (ho : latchedScaleOp c = some o) : inSpans (dstSpans o c.planes) a = false := by
  have hlatched := (Bool.or_eq_false_iff.1 ha).2
  simpa only [hphase, ho] using hlatched

theorem read_scrambleLatched_outside {c : Latched} {t : State}
    (ha : ∀ o, latchedScaleOp c = some o → inSpans (dstSpans o c.planes) a = false) :
    Memory.read (scrambleLatched c t).mem a = Memory.read t.mem a := by
  unfold scrambleLatched
  split
  next o ho => exact read_scrambleDst_other o c.planes t (ha o ho)
  next => rfl

/-- The end of a command changes memory only where the host has disturbed it (R73). -/
theorem read_endCommand_outside (ha : mayChange op s a = false) {t : State} (hphase : t.phase = s.phase)
    (e : Option Err) : Memory.read (endCommand e t).mem a = Memory.read t.mem a := by
  unfold endCommand
  split
  next c hbusy => exact read_scrambleLatched_outside fun o => not_inSpans_of_disturbed ha (hphase.symm.trans hbusy)
  next => rfl

theorem read_runCommand_outside (f : FilterMode) (ha : mayChange op s a = false) :
    Memory.read (runCommand op f s).mem a = Memory.read s.mem a := by
  rcases runCommand_cases op f s with ⟨e, -, hr⟩ | ⟨-, hr⟩ <;> rw [hr]
  · exact read_endCommand_outside (t := clearStatus s) ha rfl (some e)
  · refine (read_endCommand_outside ha ?_ _).trans ?_
    · exact runPath_phase ..
    · exact read_runPath_outside _ _ _ _ _ (not_inSpans_of_not_mayChange ha)

end

/-! ### The obligations -/

/-- Settles O15: the path and the end of the command each keep the host's registers and the bytes outside. -/
theorem commandFrame : Obligations.CommandFrame := by
  unfold Obligations.CommandFrame
  intro op f s
  obtain ⟨hphase, hdone⟩ := runCommand_ends op f s
  exact ⟨_, exec_commandInstr op f s, hphase, hdone, sameHostSide_runCommand op f s,
    fun _ ha => read_runCommand_outside f ha⟩

/-- Settles O16: NOP is a command that ends at once. -/
theorem nopOnlyCompletes : Obligations.NopOnlyCompletes := by
  unfold Obligations.NopOnlyCompletes
  intro f s hund
  have hnop : exec (.nop f) s = .next (endCommand none (clearStatus s)) := rfl
  rw [hnop, endCommand_clearStatus hund]

end Sys2Proof.Proofs.CommandFrames

/-! PROOFS. A scaling command runs the path that dispatch selects (R265, R266, R267): on sizes that select it, every path
answers its rows, but for the overflow of VERTICAL and the wide samples of the 12-bit paths. -/

namespace Sys2Proof.Proofs.CommandPaths

open Sys2Proof Sys2Proof.Machine Sys2Proof.Proofs.HostMemory Sys2Proof.Proofs.DispatchPairs
  Sys2Proof.Proofs.RunningPaths Sys2Proof.Proofs.PathEquivalences Sys2Proof.Proofs.ExactRatioPaths
  Sys2Proof.Proofs.CoordinatePaths Sys2Proof.Proofs.BoxWalk Sys2Proof.Proofs.RowStores
  Sys2Proof.Proofs.DoublingPaths Sys2Proof.Proofs.RunningErrors Sys2Proof.Proofs.CommandErrors

/-! ### The selected path (R140 to R155) -/

theorem dispatch_selectedWhen (op : ScaleOp) (pl : Planes) (f : FilterMode) :
    selectedWhen pl.srcW.toInt (srcHeight pl) pl.dstW.toInt pl.dstH.toInt (dispatch op pl f).mode
      (dispatch op pl f).path := by
  cases op
  case scale12 => exact select12_selectedWhen ..
  all_goals exact select_selectedWhen ..

/-- The paths that check the range of their samples (R241, R242). -/
def isTwelveBit : PathCode → Bool
  | .up2Linear12 | .up2Bilinear12 => true
  | _ => false

theorem isTwelveBit_selectPath (srcW h dstW dstH : Int) (m : FilterMode) :
    isTwelveBit (selectPath srcW h dstW dstH m) = false := by
  unfold selectPath
  extract_lets down
  have rule {c : Prop} [Decidable c] {p q : PathCode} (hp : isTwelveBit p = false) (hq : isTwelveBit q = false) :
      isTwelveBit (if c then p else q) = false :=
    iteInduction (motive := fun r => isTwelveBit r = false) (fun _ => hp) fun _ => hq
  exact rule rfl (rule rfl (rule rfl (rule rfl (rule rfl (rule rfl (rule rfl (rule rfl (rule rfl
    (rule rfl (rule rfl rfl))))))))))

/-- Only SCALE12 selects them (R155). -/
theorem scale12_of_isTwelveBit {op : ScaleOp} {pl : Planes} {f : FilterMode}
    (h : isTwelveBit (dispatch op pl f).path = true) : op = .scale12 := by
  cases op
  case scale12 => rfl
  all_goals exact absurd ((isTwelveBit_selectPath ..).symm.trans h) Bool.false_ne_true

theorem exec_pathInstr {p : PathCode} {op : ScaleOp} (hop : isTwelveBit p = true → op = .scale12) (pl : Planes)
    (m : FilterMode) (s : State) : exec (pathInstr p op pl m) s = execPath p op pl m s := by
  cases p
  case up2Linear12 | up2Bilinear12 =>
    obtain rfl := hop rfl
    rfl
  all_goals rfl

/-! ### The rows of the selected path (R210 to R253) -/

section
variable {p : PathCode} {op : ScaleOp} {pl : Planes} {m : FilterMode} {s : State}

theorem dstWidth_of_copyWidth (hsizes : LegalSizes pl) (h : pl.dstW.toInt = pl.srcW.toInt) :
    dstWidth pl = srcWidth pl :=
  (sizes_of_sameWidth hsizes (BitVec.eq_of_toInt_eq h)).2

theorem dstHeight_of_copyHeight (hsizes : LegalSizes pl) (h : pl.dstH.toInt = srcHeight pl) :
    dstHeight pl = srcHeight pl := by
  rw [hsizes.dstHeight_eq] at h
  exact_mod_cast h

/-- The path answers rows that lie in the destination. -/
def Answers (p : PathCode) (op : ScaleOp) (pl : Planes) (m : FilterMode) (s : State) : Prop :=
  ∃ w, pathRows p (pathJob op pl m s) (pathStep pl p m) = .ok w ∧ writesInside pl w = true

theorem answers_of_planeRows {F : Nat → Nat → Nat}
    (h : pathRows p (pathJob op pl m s) (pathStep pl p m) = .ok (planeRows pl F)) : Answers p op pl m s :=
  ⟨_, h, writesInside_planeRows pl F⟩

/-- A path answers on the sizes and the mode that select it, but for the two errors of a running path (R305, R307). -/
theorem answers_of_selectedWhen (hruns : pathRuns p op pl m s.cfg = true)
    (hsel : selectedWhen pl.srcW.toInt (srcHeight pl) pl.dstW.toInt pl.dstH.toInt m p)
    (hov : ¬ (p = .vertical ∧ srcHeight pl = 32768 ∧ dstHeight pl = 1)) (hnarrow : NoWideSample p op pl s.mem) :
    Answers p op pl m s := by
  have hsizes := legalSizes_of_pathRuns hruns
  have hratio := exactRatio_of_pathRuns hruns
  have hpos := hsizes.dstHeight_pos
  cases p with
  | copy =>
    obtain ⟨hwidth, hheight⟩ := hsel
    exact answers_of_planeRows
      (copyRows_ok m (dstWidth_of_copyWidth hsizes hwidth) (dstHeight_of_copyHeight hsizes hheight))
  | vertical =>
    exact answers_of_planeRows
      (verticalRows_ok hsizes (fun h => hov ⟨rfl, h⟩) (dstWidth_of_copyWidth hsizes hsel.1))
  | down34 =>
    obtain ⟨-, hwidth, hheight⟩ := sizes_of_down34 hsizes hratio
    exact answers_of_planeRows (down34Rows_ok hwidth hheight)
  | down2 =>
    obtain ⟨-, hwidth, hheight⟩ := sizes_of_down2 hsizes hratio
    exact answers_of_planeRows (down2Rows_ok hwidth hheight)
  | down38 =>
    obtain ⟨-, hwidth, hheight⟩ := sizes_of_down38 hsizes hratio
    exact answers_of_planeRows (down38Rows_ok hwidth hheight)
  | down4 =>
    obtain ⟨-, hwidth, hheight⟩ := sizes_of_down4 hsizes hratio
    exact answers_of_planeRows (down4Rows_ok hwidth hheight)
  | box => exact answers_of_planeRows (boxRows_ok hsizes (srcW_pos_of_box hruns) m)
  | up2Linear => exact answers_of_planeRows (up2LinearRows_jobRow_ok hsizes (srcWidth_of_doubles hsizes hratio))
  | up2Bilinear =>
    obtain ⟨hwidth, hheight⟩ := sizes_of_up2Bilinear (.inl rfl) hsizes hratio
    exact ⟨_, up2BilinearRows_jobRow_ok hsizes hwidth hheight, writesInside_doubledWrites hpos hheight⟩
  | bilinearUp => exact answers_of_planeRows (bilinearUpRows_ok hsizes (mode_of_pathRuns (.inl rfl) hruns))
  | bilinearDown => exact answers_of_planeRows (bilinearDownRows_ok hsizes (mode_of_pathRuns (.inr rfl) hruns))
  | simple => exact answers_of_planeRows (simpleRows_ok hsizes)
  | up2Linear12 =>
    exact answers_of_planeRows (up2Linear12Rows_ok hsizes (srcWidth_of_doubles hsizes hratio) hnarrow)
  | up2Bilinear12 =>
    obtain ⟨hwidth, hheight⟩ := sizes_of_up2Bilinear (.inr rfl) hsizes hratio
    exact ⟨_, up2Bilinear12Rows_ok hsizes hwidth hheight hnarrow, writesInside_doubledWrites hpos hheight⟩

/-! ### The command (R266) -/

theorem execPath_of_rows (hruns : pathRuns p op pl m s.cfg = true) {w : RowWrites}
    (hrows : pathRows p (pathJob op pl m s) (pathStep pl p m) = .ok w) (hin : writesInside pl w = true) :
    execPath p op pl m s = .next (afterPath p (pathStep pl p m) (storeRows op pl w s.mem) s) := by
  simp only [pathRuns, Bool.and_eq_true, decide_eq_true_eq] at hruns
  obtain ⟨hready, hpost⟩ := hruns
  rw [execPath, if_pos hready, runPath_of_rows hpost hrows hin]

end

/-- The end of a command whose path ran to its last write (R267). -/
theorem runCommand_of_rows {op : ScaleOp} {f : FilterMode} {s : State} {sel : Selection}
    (hsel : dispatch op (commandPlanes s) f = sel) (hund : undisturbed s = true)
    (hpre : preCheck s.cfg op (commandPlanes s) = none)
    (hpost : postCheck s.cfg op (commandPlanes s) sel.path = .runs) {st : ScaleStep} {w : RowWrites}
    (hstep : pathStep (commandPlanes s) sel.path sel.mode = st)
    (hrows : pathRows sel.path (pathJob op (commandPlanes s) sel.mode s) st = .ok w)
    (hin : writesInside (commandPlanes s) w = true) :
    runCommand op f s = { afterPath sel.path st (storeRows op (commandPlanes s) w s.mem) s with
      done := true, err := none, effFilter := sel.mode, phase := .idle, scratchGen := s.scratchGen + 2 } := by
  subst hsel hstep
  rw [runCommand_of_preCheck hpre, runPath_of_rows (s := selected op f s) hpost hrows hin]
  exact endCommand_undisturbed none hund

/-- Settles O22: the selected path answers its rows, and the command ends with what the P operation stores. -/
theorem commandRunsItsPath : Obligations.CommandRunsItsPath := by
  unfold Obligations.CommandRunsItsPath
  intro op f s hund pl sel
  refine ⟨fun _ _ => commandPlanes_busy, commandPlanes_idle, exec_selectInstr op pl f s,
    fun hpre hpost hov hnarrow => ?_⟩
  have hruns := pathRuns_dispatch hpre hpost
  obtain ⟨w, hrows, hin⟩ := answers_of_selectedWhen hruns (dispatch_selectedWhen op pl f) hov hnarrow
  refine ⟨_, _, (exec_pathInstr scale12_of_isTwelveBit pl sel.mode s).trans (execPath_of_rows hruns hrows hin), ?_⟩
  rw [exec_commandInstr, runCommand_of_rows rfl hund hpre hpost rfl hrows hin]

end Sys2Proof.Proofs.CommandPaths

/-! PROOFS. A command's outcome depends on its parameters, its operands and its source bytes only (R75, R269). -/

namespace Sys2Proof.Proofs.RepeatableCommands

open Sys2Proof Sys2Proof.Machine Sys2Proof.Proofs.HostMemory Sys2Proof.Proofs.RunningPaths
  Sys2Proof.Proofs.RowStores Sys2Proof.Proofs.RunningErrors Sys2Proof.Proofs.CommandErrors
  Sys2Proof.Proofs.PathCoverage Sys2Proof.Proofs.VerticalMirror Sys2Proof.Proofs.CommandPaths

/-! ### Equal source bytes -/

/-- The memories hold the same bytes in the source footprint. -/
def SameSource (op : ScaleOp) (pl : Planes) (mem mem' : Memory) : Prop :=
  ∀ a : Nat, inSpans (srcSpans op pl) a = true → Memory.read mem a = Memory.read mem' a

theorem nonneg_of_inSpans {spans : List (Int × Int)} (hspace : spansInSpace spans = true) {a : Int}
    (ha : inSpans spans a = true) : 0 ≤ a := by
  obtain ⟨sp, hsp, hin⟩ := List.any_eq_true.1 ha
  have hsp64 := List.all_eq_true.1 hspace sp hsp
  simp only [Bool.and_eq_true, decide_eq_true_eq] at hin hsp64
  omega

section
variable {op : ScaleOp} {pl : Planes} {m : FilterMode} {s t : State}
  (hspace : spansInSpace (srcSpans op pl) = true) (hsrc : SameSource op pl s.mem t.mem)
include hspace hsrc

theorem srcSample_eq_of_sameSource {r c : Nat} (hr : r < srcHeight pl) (hc : c < srcWidth pl) :
    srcSample op pl s.mem r c = srcSample op pl t.mem r c := by
  have hbytes := srcBytes_cases op
  have hin (a : Int) (hlo : srcAddr op pl r c ≤ a) (hhi : a < srcAddr op pl r c + srcBytes op) :
      inSpans (srcSpans op pl) a = true := (Footprints.inSpans_srcSpans_iff op pl a).2 ⟨r, c, hr, hc, hlo, hhi⟩
  have hstart := nonneg_of_inSpans hspace (hin _ le_rfl (by omega))
  refine loadSample_congr hbytes fun b hlo hhi => ?_
  rw [Int.toNat_natCast, Int.toNat_natCast] at hlo hhi
  exact hsrc b (hin b (by omega) (by omega))

theorem jobRow_eq_of_sameSource : jobRow (pathJob op pl m s) = jobRow (pathJob op pl m t) := by
  funext r c
  by_cases hin : (0 ≤ r ∧ r < srcHeight pl) ∧ 0 ≤ c ∧ c < srcWidth pl
  · obtain ⟨⟨hr0, hr⟩, hc0, hc⟩ := hin
    lift r to Nat using hr0
    lift c to Nat using hc0
    rw [Nat.cast_lt] at hr hc
    rw [jobRow_ok op m s hr hc, jobRow_ok op m t hr hc, srcSample_eq_of_sameSource hspace hsrc hr hc]
  · have hout : r < 0 ∨ srcHeight pl ≤ r ∨ c < 0 ∨ srcWidth pl ≤ c := by omega
    exact (srcRow_oob op pl s.mem hout).trans (srcRow_oob op pl t.mem hout).symm

/-- A path computes the same rows, or raises the same error, from the same source bytes (R75). -/
theorem pathWrites_eq_of_sameSource (hcfg : s.cfg = t.cfg) (p : PathCode) (st : ScaleStep) :
    pathWrites p (pathJob op pl m s) st = pathWrites p (pathJob op pl m t) st := by
  have hview : SameView (pathJob op pl m s) (pathJob op pl m t) :=
    { cfg := hcfg, op := rfl, mode := rfl, row := jobRow_eq_of_sameSource hspace hsrc, width := rfl, height := rfl,
      dstWidth := rfl, dstHeight := rfl, maxY := rfl }
  rw [pathWrites, pathWrites, pathRows_view hview]
  rfl

end

theorem srcSpansInSpace_of_runs {cfg : Config} {op : ScaleOp} {pl : Planes} {p : PathCode}
    (h : postCheck cfg op pl p = .runs) : spansInSpace (srcSpans op pl) = true := by
  obtain ⟨-, -, ⟨hspace, -, -⟩, -⟩ := postCheck_runs_iff.1 h
  simp only [not_or, Bool.not_eq_false] at hspace
  exact hspace.1

/-! ### The destination bytes -/

/-- The memories hold the same bytes in the destination footprint. -/
def SameDestination (op : ScaleOp) (pl : Planes) (mem mem' : Memory) : Prop :=
  ∀ a : Nat, inSpans (dstSpans op pl) a = true → Memory.read mem a = Memory.read mem' a

/-- Rows that cover the destination leave the same bytes in it, whatever memory held. -/
theorem sameDestination_storeRows {cfg : Config} {p : PathCode} {op : ScaleOp} {pl : Planes}
    (hpost : postCheck cfg op pl p = .runs) {w : RowWrites} (hw : Covers pl w) {mem mem' : Memory}
    (hmem : Memory.wf mem = true) (hmem' : Memory.wf mem' = true) :
    SameDestination op pl (storeRows op pl w mem) (storeRows op pl w mem') := fun a ha => by
  obtain ⟨r, c, hr, hc, hlo, hhi⟩ := (Footprints.inSpans_dstSpans_iff op pl a).1 ha
  have hstart := dstAddr_nonneg (spansInSpace_of_runs hpost) hr c
  have hspace := ((memValid_iff cfg a).1 (memValid_of_runs hpost ha)).1
  obtain ⟨d, hd, hwidth⟩ := hw r hr
  obtain ⟨v, hv⟩ := determines_storeRows (op := op) (pl := pl) (a := a) hd (k := c)
    (lt_of_lt_of_eq hc hwidth.symm) (by dsimp only; omega) (by dsimp only; omega) hspace
  rw [hv mem hmem, hv mem' hmem']

/-- The identical planes of a selected COPY have one footprint (R69, R143). -/
theorem dstSpans_of_shortCircuit {cfg : Config} {op : ScaleOp} {pl : Planes} {f : FilterMode}
    (hsizes : LegalSizes pl) (hpost : postCheck cfg op pl (dispatch op pl f).path = .shortCircuit) :
    dstSpans op pl = srcSpans op pl := by
  have hshort : copyShortCircuit op pl (dispatch op pl f).path = true := by
    unfold postCheck at hpost
    split_ifs at hpost with _ hshort
    exact hshort
  simp only [copyShortCircuit, Bool.and_eq_true, decide_eq_true_eq] at hshort
  obtain ⟨⟨⟨⟨hcopy, hop⟩, -⟩, hbase⟩, hstride⟩ := hshort
  have hsel := dispatch_selectedWhen op pl f
  rw [hcopy] at hsel
  obtain ⟨hwidth, hheight⟩ := hsel
  have hbytes : dstBytes op = srcBytes op := by
    cases op
    case scale16to8 => exact absurd rfl hop
    all_goals rfl
  have haddr (r : Nat) : dstAddr op pl r 0 = srcPhysAddr op pl r 0 := by
    rw [dstAddr, srcPhysAddr, hbase, hstride, hbytes]
  simp only [dstSpans, srcSpans, haddr, hbytes, dstWidth_of_copyWidth hsizes hwidth,
    dstHeight_of_copyHeight hsizes hheight]

/-! ### A path by its checks and its writes (R266, R267) -/

section
variable {p : PathCode} {op : ScaleOp} {pl : Planes} {m : FilterMode} {s : State}

theorem runPath_of_fails {e : Err} (hpost : postCheck s.cfg op pl p = .fails e) :
    runPath p op pl m s = (setPath p s, some e) := by
  rw [runPath, hpost]

theorem runPath_of_shortCircuit (hpost : postCheck s.cfg op pl p = .shortCircuit) :
    runPath p op pl m s = (setPath p s, none) := by
  rw [runPath, hpost]

variable (hpost : postCheck s.cfg op pl p = .runs)
include hpost

theorem runPath_of_writes {w : RowWrites} (hw : pathWrites p (pathJob op pl m s) (pathStep pl p m) = .ok w) :
    runPath p op pl m s = (afterPath p (pathStep pl p m) (storeRows op pl w s.mem) s, none) := by
  unfold pathJob at hw
  simp only [runPath, hpost, hw]
  rfl

theorem runPath_of_writes_error {e : Err} (hw : pathWrites p (pathJob op pl m s) (pathStep pl p m) = .error e) :
    runPath p op pl m s = (scrambleDst op pl (setStep (pathStep pl p m) (setPath p s)), some e) := by
  unfold pathJob at hw
  simp only [runPath, hpost, hw]

end

/-! ### Equal outcomes -/

/-- The states agree on EFF_FILTER, PATH and STEP_*. -/
structure SameProgress (s t : State) : Prop where
  path : s.path = t.path
  effFilter : s.effFilter = t.effFilter
  stepX : s.stepX = t.stepX
  stepY : s.stepY = t.stepY
  stepDX : s.stepDX = t.stepDX
  stepDY : s.stepDY = t.stepDY

/-- The states agree on what a command reports, and without an error on the destination (R269). -/
structure SameOutcome (op : ScaleOp) (pl : Planes) (s t : State) : Prop where
  status : statusWord s = statusWord t
  stepX : s.stepX = t.stepX
  stepY : s.stepY = t.stepY
  stepDX : s.stepDX = t.stepDX
  stepDY : s.stepDY = t.stepDY
  dst : s.err = none → SameDestination op pl s.mem t.mem

theorem runCommand_of_preCheck_fails {op : ScaleOp} {f : FilterMode} {s : State} {e : Err}
    (hpre : preCheck s.cfg op (commandPlanes s) = some e) : runCommand op f s = raiseBeforeDispatch e s := by
  rcases runCommand_cases op f s with ⟨e', hfails, hr⟩ | ⟨hpass, -⟩
  · cases hpre.symm.trans hfails
    exact hr
  · cases hpre.symm.trans hpass

section
variable {op : ScaleOp} {pl : Planes} {s t : State} (hunds : undisturbed s = true) (hundt : undisturbed t = true)
include hunds hundt

theorem sameOutcome_endCommand {e : Option Err} (h : SameProgress s t)
    (hdst : e = none → SameDestination op pl s.mem t.mem) :
    SameOutcome op pl (endCommand e s) (endCommand e t) := by
  obtain ⟨hpath, hmode, hx, hy, hdx, hdy⟩ := h
  rw [endCommand_undisturbed e hunds, endCommand_undisturbed e hundt]
  exact ⟨by simp only [statusWord, isBusy, hpath, hmode], hx, hy, hdx, hdy, hdst⟩

/-- What a path leaves for the end of its command is the same in both states. -/
theorem sameOutcome_runPath {p : PathCode} {m : FilterMode} (hwfs : Memory.wf s.mem = true)
    (hwft : Memory.wf t.mem = true) (hcfg : s.cfg = t.cfg) (h : SameProgress s t) (hsrc : SameSource op pl s.mem t.mem)
    (hsizes : LegalSizes pl) (hratio : exactRatio p pl = true)
    (hshort : postCheck s.cfg op pl p = .shortCircuit → dstSpans op pl = srcSpans op pl) :
    SameOutcome op pl (endCommand (runPath p op pl m s).2 (runPath p op pl m s).1)
      (endCommand (runPath p op pl m t).2 (runPath p op pl m t).1) := by
  obtain ⟨-, hmode, hx, hy, hdx, hdy⟩ := h
  have hset : SameProgress (setPath p s) (setPath p t) := ⟨rfl, hmode, hx, hy, hdx, hdy⟩
  rcases hpost : postCheck s.cfg op pl p with e | _ | _
  · rw [runPath_of_fails hpost, runPath_of_fails (hcfg ▸ hpost)]
    exact sameOutcome_endCommand (s := setPath p s) (t := setPath p t) (e := some e) hunds hundt hset nofun
  · rw [runPath_of_shortCircuit hpost, runPath_of_shortCircuit (hcfg ▸ hpost)]
    have hdst : SameDestination op pl s.mem t.mem := by
      unfold SameDestination
      rwa [hshort hpost]
    exact sameOutcome_endCommand (s := setPath p s) (t := setPath p t) hunds hundt hset fun _ => hdst
  · have hspace := srcSpansInSpace_of_runs hpost
    have hpost' : postCheck t.cfg op pl p = .runs := hcfg ▸ hpost
    have hwrites := pathWrites_eq_of_sameSource (m := m) hspace hsrc hcfg p (pathStep pl p m)
    rcases hw : pathWrites p (pathJob op pl m s) (pathStep pl p m) with e | w
    · rw [runPath_of_writes_error hpost hw, runPath_of_writes_error hpost' (hwrites.symm.trans hw)]
      exact sameOutcome_endCommand (s := scrambleDst op pl (setStep (pathStep pl p m) (setPath p s)))
        (t := scrambleDst op pl (setStep (pathStep pl p m) (setPath p t))) (e := some e) hunds hundt
        ⟨rfl, hmode, rfl, rfl, rfl, rfl⟩ nofun
    · rw [runPath_of_writes hpost hw, runPath_of_writes hpost' (hwrites.symm.trans hw)]
      have hcover := covers_of_pathWrites hsizes hratio w hw
      exact sameOutcome_endCommand hunds hundt (s := afterPath _ _ _ _) (t := afterPath _ _ _ _)
        ⟨rfl, hmode, rfl, rfl, rfl, rfl⟩ fun _ => sameDestination_storeRows hpost hcover hwfs hwft

end

/-- Two commands that read the same have the same outcome. -/
theorem sameOutcome_runCommand {op : ScaleOp} {f : FilterMode} {s t : State} (hunds : undisturbed s = true)
    (hundt : undisturbed t = true) (hwfs : Memory.wf s.mem = true) (hwft : Memory.wf t.mem = true)
    (hcfg : s.cfg = t.cfg) (hplanes : commandPlanes s = commandPlanes t)
    (hsrc : SameSource op (commandPlanes s) s.mem t.mem) :
    SameOutcome op (commandPlanes s) (runCommand op f s) (runCommand op f t) := by
  rcases hpre : preCheck s.cfg op (commandPlanes s) with _ | e
  · have hsizes := legalSizes_of_preCheck hpre
    have hpre' : preCheck t.cfg op (commandPlanes t) = none := by rw [← hcfg, ← hplanes, hpre]
    rw [runCommand_of_preCheck hpre, runCommand_of_preCheck hpre', selected, selected, ← hplanes]
    exact sameOutcome_runPath (s := setEffFilter _ (clearStatus s)) (t := setEffFilter _ (clearStatus t)) hunds hundt
      hwfs hwft hcfg ⟨rfl, rfl, rfl, rfl, rfl, rfl⟩ hsrc hsizes (exactRatio_dispatch op _ f)
      (dstSpans_of_shortCircuit hsizes)
  · have hpre' : preCheck t.cfg op (commandPlanes t) = some e := by rw [← hcfg, ← hplanes, hpre]
    rw [runCommand_of_preCheck_fails hpre, runCommand_of_preCheck_fails hpre']
    exact sameOutcome_endCommand (s := clearStatus s) (t := clearStatus t) hunds hundt
      ⟨rfl, rfl, rfl, rfl, rfl, rfl⟩ nofun

/-- Settles O39: the checks and the rows are the same in both runs, and the rows cover the destination. -/
theorem commandsAreRepeatable : Obligations.CommandsAreRepeatable := by
  unfold Obligations.CommandsAreRepeatable
  intro op f s t hunds hundt hwfs hwft hcfg hplanes hsrc
  obtain ⟨hstatus, hx, hy, hdx, hdy, hdst⟩ :=
    sameOutcome_runCommand (f := f) hunds hundt hwfs hwft hcfg hplanes hsrc
  exact ⟨_, _, exec_commandInstr op f s, exec_commandInstr op f t, hstatus, hx, hy, hdx, hdy, hdst⟩

end Sys2Proof.Proofs.RepeatableCommands

/-! PROOFS. The checks after dispatch said of the footprints' bytes (R67, R69, R255, R304 to R309): a check that compares
the ends of byte ranges fails exactly when a byte is at fault, because the rows of a legal plane are not empty. -/

namespace Sys2Proof.Proofs.FootprintChecks

open Sys2Proof Sys2Proof.Machine Sys2Proof.Proofs.Footprints Sys2Proof.Proofs.HostMemory
  Sys2Proof.Proofs.RunningPaths Sys2Proof.Proofs.ExactRatioPaths

/-! ### Ranges and their bytes (R67, R309, R69 (a)) -/

/-- Every range holds a byte. -/
def NonemptySpans (spans : List (Int × Int)) : Prop := ∀ sp ∈ spans, sp.1 < sp.2

theorem inSpans_iff {spans : List (Int × Int)} {a : Int} :
    inSpans spans a = true ↔ ∃ sp ∈ spans, sp.1 ≤ a ∧ a < sp.2 := by
  simp only [inSpans, List.any_eq_true, Bool.and_eq_true, decide_eq_true_eq]

theorem spansInSpace_eq_false_iff {spans : List (Int × Int)} (hne : NonemptySpans spans) :
    spansInSpace spans = false ↔ ∃ a, inSpans spans a = true ∧ (a < 0 ∨ 2 ^ 64 ≤ a) := by
  simp only [spansInSpace, List.all_eq_false, Bool.and_eq_true, decide_eq_true_eq, inSpans_iff]
  constructor
  · rintro ⟨sp, hsp, hout⟩
    have hpos := hne sp hsp
    by_cases hlo : sp.1 < 0
    · exact ⟨sp.1, ⟨sp, hsp, le_rfl, hpos⟩, .inl hlo⟩
    · exact ⟨sp.2 - 1, ⟨sp, hsp, by omega, by omega⟩, .inr (by omega)⟩
  · rintro ⟨a, ⟨sp, hsp, hlo, hhi⟩, hout⟩
    exact ⟨sp, hsp, by omega⟩

/-- In the address space, the bytes that do not exist are those in a hole (R61). -/
theorem spansValid_eq_false_iff {cfg : Config} {spans : List (Int × Int)} (hne : NonemptySpans spans)
    (hspace : ∀ a, inSpans spans a = true → 0 ≤ a ∧ a < 2 ^ 64) :
    spansValid cfg spans = false ↔ ∃ a : Nat, inSpans spans a = true ∧ memValid cfg a = false := by
  simp only [spansValid, List.all_eq_false, Bool.not_eq_true, Bool.or_eq_false_iff, decide_eq_false_iff_not]
  constructor
  · rintro ⟨sp, hsp, h, hh, ⟨hhole, hbelow⟩, habove⟩
    have hpos := hne sp hsp
    obtain ⟨hstart, -⟩ := hspace sp.1 (inSpans_iff.2 ⟨sp, hsp, le_rfl, hpos⟩)
    refine ⟨max sp.1.toNat h.1, inSpans_iff.2 ⟨sp, hsp, by omega, by omega⟩, ?_⟩
    rw [← Bool.not_eq_true, memValid_iff]
    exact fun hvalid => hvalid.2 h hh ⟨by omega, by omega⟩
  · rintro ⟨a, ha, hinvalid⟩
    obtain ⟨-, hlt⟩ := hspace a ha
    obtain ⟨sp, hsp, hlo, hhi⟩ := inSpans_iff.1 ha
    rw [← Bool.not_eq_true, memValid_iff] at hinvalid
    push Not at hinvalid
    obtain ⟨h, hh, hin⟩ := hinvalid (by omega)
    exact ⟨sp, hsp, h, hh, ⟨by omega, by omega⟩, by omega⟩

theorem spansMeet_iff {xs ys : List (Int × Int)} :
    spansMeet xs ys = true ↔ ∃ a, inSpans xs a = true ∧ inSpans ys a = true := by
  simp only [spansMeet, List.any_eq_true, decide_eq_true_eq, inSpans_iff]
  constructor
  · rintro ⟨x, hx, y, hy, hmeet⟩
    exact ⟨max x.1 y.1, ⟨x, hx, by omega, by omega⟩, y, hy, by omega, by omega⟩
  · rintro ⟨a, ⟨x, hx, hxlo, hxhi⟩, y, hy, hylo, hyhi⟩
    exact ⟨x, hx, y, hy, by omega⟩

theorem nonemptySpans_srcSpans {pl : Planes} (hsizes : LegalSizes pl) (op : ScaleOp) :
    NonemptySpans (srcSpans op pl) := by
  have hwidth := hsizes.srcWidth_pos
  intro sp hsp
  obtain ⟨r, -, rfl⟩ := List.mem_map.1 hsp
  rcases srcBytes_cases op with hb | hb <;> simp only [hb] <;> omega

theorem nonemptySpans_dstSpans {pl : Planes} (hsizes : LegalSizes pl) (op : ScaleOp) :
    NonemptySpans (dstSpans op pl) := by
  have hwidth := hsizes.dstWidth_pos
  intro sp hsp
  obtain ⟨r, -, rfl⟩ := List.mem_map.1 hsp
  rcases dstBytes_cases op with hb | hb <;> simp only [hb] <;> omega

/-! ### Destination samples that share a byte (R69 (b)) -/

/-- The sample at (r, c), as a multiple of the sample's bytes from the base. -/
def dstIndex (pl : Planes) (r c : Nat) : Int := r * pl.dstStride.toInt + c

theorem dstAddr_eq_dstIndex (op : ScaleOp) (pl : Planes) (r c : Nat) :
    dstAddr op pl r c = pl.dstBase.toNat + dstIndex pl r c * dstBytes op := rfl

/-- Samples of one size that share a byte are at the same address. -/
theorem dstIndex_eq_of_shared_byte {op : ScaleOp} {pl : Planes} {r c r' c' : Nat} {a : Int}
    (hlo : dstAddr op pl r c ≤ a) (hhi : a < dstAddr op pl r c + dstBytes op)
    (hlo' : dstAddr op pl r' c' ≤ a) (hhi' : a < dstAddr op pl r' c' + dstBytes op) :
    dstIndex pl r c = dstIndex pl r' c' := by
  rw [dstAddr_eq_dstIndex] at hlo hhi hlo' hhi'
  rcases dstBytes_cases op with hb | hb <;> rw [hb] at hlo hhi hlo' hhi' <;> omega

/-- Two samples at one address lie in rows whose starts are closer than a row is wide. -/
theorem dstSelfOverlap_of_dstIndex_eq {pl : Planes} {r c r' c' : Nat} (hr : r < dstHeight pl) (hc : c < dstWidth pl)
    (hr' : r' < dstHeight pl) (hc' : c' < dstWidth pl) (hne : (r, c) ≠ (r', c'))
    (heq : dstIndex pl r c = dstIndex pl r' c') : dstSelfOverlap pl = true := by
  unfold dstIndex at heq
  have hrows : r ≠ r' := by
    rintro rfl
    exact hne (by rw [show c = c' by omega])
  have hstride : pl.dstStride.toInt.natAbs ≤ ((c' : Int) - c).natAbs := by
    have hprod : ((r : Int) - r') * pl.dstStride.toInt = c' - c := by linarith
    rw [← hprod, Int.natAbs_mul]
    exact Nat.le_mul_of_pos_left _ (by omega)
  simp only [dstSelfOverlap, Bool.and_eq_true, decide_eq_true_eq]
  omega

/-- Where the rows' starts are that close, a sample of row 0 and one of row 1 are at one address. -/
theorem exists_dstIndex_eq {pl : Planes} (h : dstSelfOverlap pl = true) :
    1 < dstHeight pl ∧ ∃ c c' : Nat, c < dstWidth pl ∧ c' < dstWidth pl ∧ dstIndex pl 0 c = dstIndex pl 1 c' := by
  simp only [dstSelfOverlap, Bool.and_eq_true, decide_eq_true_eq] at h
  obtain ⟨hrows, hstride⟩ := h
  refine ⟨hrows, pl.dstStride.toInt.toNat, (-pl.dstStride.toInt).toNat, by omega, by omega, ?_⟩
  simp only [dstIndex]
  omega

theorem dstSelfOverlap_iff (op : ScaleOp) (pl : Planes) : dstSelfOverlap pl = true ↔
    ∃ r c r' c' : Nat, ∃ a : Int, r < dstHeight pl ∧ c < dstWidth pl ∧ r' < dstHeight pl ∧ c' < dstWidth pl ∧
      (r, c) ≠ (r', c') ∧ dstAddr op pl r c ≤ a ∧ a < dstAddr op pl r c + dstBytes op ∧
      dstAddr op pl r' c' ≤ a ∧ a < dstAddr op pl r' c' + dstBytes op := by
  constructor
  · intro h
    obtain ⟨hrows, c, c', hc, hc', heq⟩ := exists_dstIndex_eq h
    have haddr : dstAddr op pl 1 c' = dstAddr op pl 0 c := by rw [dstAddr_eq_dstIndex, ← heq, dstAddr_eq_dstIndex]
    have hbytes := dstBytes_cases op
    exact ⟨0, c, 1, c', dstAddr op pl 0 c, by omega, hc, hrows, hc', by simp, by omega, by omega, by omega, by omega⟩
  · rintro ⟨r, c, r', c', a, hr, hc, hr', hc', hne, hlo, hhi, hlo', hhi'⟩
    exact dstSelfOverlap_of_dstIndex_eq hr hc hr' hc' hne (dstIndex_eq_of_shared_byte hlo hhi hlo' hhi')

/-! ### The scratch demand (R255) -/

theorem scratchDemand_eq (op : ScaleOp) (pl : Planes) (p : PathCode) : scratchDemand op pl p =
    if p = .box then srcWidth pl * 2 * srcBytes op
    else if p = .bilinearUp then 2 * ((dstWidth pl + 31) / 32 * 32) * srcBytes op
    else if p = .bilinearDown then srcWidth pl * srcBytes op else 0 := by
  cases p
  case box => cases op <;> simp only [scratchDemand, sampleWidth, srcBytes, if_true] <;> omega
  all_goals rfl

/-- No demand exceeds the default capacity (R8). -/
theorem scratchDemand_le {pl : Planes} (hsizes : LegalSizes pl) (op : ScaleOp) (p : PathCode) :
    scratchDemand op pl p ≤ 131072 := by
  have hsrc := hsizes.srcWidth_le
  have hdst := hsizes.dstWidth_le
  rw [scratchDemand_eq]
  rcases srcBytes_cases op with hb | hb <;> rw [hb] <;> split_ifs <;> omega

/-! ### The obligation -/

theorem copyShortCircuit_iff {op : ScaleOp} {pl : Planes} {p : PathCode} : copyShortCircuit op pl p = true ↔
    p = .copy ∧ op ≠ .scale16to8 ∧ 0 < pl.srcH.toInt ∧ pl.srcBase = pl.dstBase ∧ pl.srcStride = pl.dstStride := by
  simp only [copyShortCircuit, Bool.and_eq_true, decide_eq_true_eq, and_assoc]

/-- Settles O21: each check in its turn, with its condition said of bytes. -/
theorem postChecksInOrder : Obligations.PostChecksInOrder := by
  unfold Obligations.PostChecksInOrder
  intro cfg op pl p hpre touches mirroredBox samePlane outOfSpace invalid overlap b demand tooLarge
  have hsizes := legalSizes_of_preCheck hpre
  have hsrc := nonemptySpans_srcSpans hsizes op
  have hdst := nonemptySpans_dstSpans hsizes op
  have hdemand : scratchDemand op pl p = demand := by rw [scratchDemand_eq, srcBytes_eq]
  have hspace : (spansInSpace (srcSpans op pl) = false ∨ spansInSpace (dstSpans op pl) = false) ↔ outOfSpace := by
    rw [spansInSpace_eq_false_iff hsrc, spansInSpace_eq_false_iff hdst, ← exists_or]
    exact exists_congr fun a => or_and_right.symm
  have hvalid (hin : ¬ outOfSpace) :
      (spansValid cfg (srcSpans op pl) = false ∨ spansValid cfg (dstSpans op pl) = false) ↔ invalid := by
    have hbounds (a : Int) (ha : touches a) : 0 ≤ a ∧ a < 2 ^ 64 := by
      by_contra hout
      exact hin ⟨a, ha, by omega⟩
    rw [spansValid_eq_false_iff hsrc fun a ha => hbounds a (.inl ha),
      spansValid_eq_false_iff hdst fun a ha => hbounds a (.inr ha), ← exists_or]
    exact exists_congr fun a => or_and_right.symm
  have hoverlap : (spansMeet (srcSpans op pl) (dstSpans op pl) = true ∨ dstSelfOverlap pl = true) ↔ overlap := by
    rw [spansMeet_iff, dstSelfOverlap_iff op pl]
  refine ⟨fun hcap htoo => ?_, fun hbox => if_pos hbox, fun hsame => ?_, fun hbox hsame => ?_⟩
  · have hle := scratchDemand_le hsizes op p
    rw [hdemand] at hle
    exact absurd htoo (by omega)
  · obtain ⟨rfl, hop, hmirror, hbase, hstride⟩ := hsame
    exact postCheck_copy_samePlane cfg hop hmirror hbase hstride
  · rw [postCheck, if_neg hbox, if_neg (copyShortCircuit_iff.not.2 hsame), hdemand]
    refine ⟨fun hout => if_pos (hspace.2 hout), fun hin => ?_⟩
    rw [if_neg (hspace.not.2 hin)]
    refine ⟨fun hinv => if_pos ((hvalid hin).2 hinv), fun hval => ?_⟩
    rw [if_neg ((hvalid hin).not.2 hval)]
    refine ⟨fun hov => if_pos (hoverlap.2 hov), fun hapart => ?_⟩
    rw [if_neg (hoverlap.not.2 hapart)]
    exact ⟨fun htoo => if_pos htoo, fun hfits => if_neg hfits⟩

end Sys2Proof.Proofs.FootprintChecks

/-! PROOFS. The checks of a command and their reports (R300 to R303, R310, R311, R314, R69): the checks before dispatch said
of the parameters, the end of a command that a check or the identical-plane COPY ends, and the calls of a P operation that
are refused. -/

namespace Sys2Proof.Proofs.CheckReports

open Sys2Proof Sys2Proof.Machine Sys2Proof.Proofs.KernelAnswers Sys2Proof.Proofs.PathErrors
  Sys2Proof.Proofs.StateInvariant Sys2Proof.Proofs.Footprints Sys2Proof.Proofs.HostMemory
  Sys2Proof.Proofs.ReservedCommands Sys2Proof.Proofs.ReducerAndSelector Sys2Proof.Proofs.RunningPaths
  Sys2Proof.Proofs.RunningErrors Sys2Proof.Proofs.CommandErrors Sys2Proof.Proofs.CommandPaths
  Sys2Proof.Proofs.RepeatableCommands Sys2Proof.Proofs.FootprintChecks

/-! ### The checks before dispatch, each said of the parameters (R302, R303, R310) -/

section
variable {cfg : Config} {op : ScaleOp} {pl : Planes}

theorem dimsLegal_eq_false_iff : dimsLegal cfg pl = false ↔
    (pl.srcW.toInt = 0 ∨ (cfg.maxDim.val : Int) < |pl.srcW.toInt|) ∨
    (pl.srcH.toInt = 0 ∨ (cfg.maxDim.val : Int) < |pl.srcH.toInt|) ∨
    (pl.dstW.toInt < 1 ∨ (cfg.maxDim.val : Int) < pl.dstW.toInt) ∨
    (pl.dstH.toInt < 1 ∨ (cfg.maxDim.val : Int) < pl.dstH.toInt) := by
  simp only [dimsLegal, ← Bool.not_eq_true, Bool.and_eq_true, decide_eq_true_eq, ← srcWidth_cast, ← srcHeight_cast]
  simp only [srcWidth, srcHeight]
  omega

theorem scaleLegal_eq_false_iff : scaleLegal op pl = false ↔
    op = .scale16to8 ∧ (pl.scale.toNat < 256 ∨ 32768 < pl.scale.toNat) := by
  simp only [scaleLegal, Bool.or_eq_false_iff, Bool.and_eq_false_iff, decide_eq_false_iff_not, not_not, not_le]

/-- The bases that must be even (R65): the source of every command but SCALE8, the destination of SCALE16 and SCALE12. -/
theorem basesAligned_eq_false_iff : basesAligned op pl = false ↔
    (op ≠ .scale8 ∧ pl.srcBase.toNat % 2 = 1) ∨
      ((op = .scale16 ∨ op = .scale12) ∧ pl.dstBase.toNat % 2 = 1) := by
  cases op <;> simp [basesAligned, baseAligned, srcBytes, dstBytes, imp_iff_not_or]

/-! ### The first check that fails (R311) -/

theorem preCheck_eq_dim_iff : preCheck cfg op pl = some .dim ↔ dimsLegal cfg pl = false := by
  unfold preCheck
  split_ifs <;> simp_all

theorem preCheck_eq_scale_iff : preCheck cfg op pl = some .scale ↔
    ¬ dimsLegal cfg pl = false ∧ scaleLegal op pl = false := by
  unfold preCheck
  split_ifs <;> simp_all

theorem preCheck_eq_align_iff : preCheck cfg op pl = some .align ↔
    ¬ dimsLegal cfg pl = false ∧ ¬ scaleLegal op pl = false ∧ basesAligned op pl = false := by
  unfold preCheck
  split_ifs <;> simp_all

theorem preCheck_eq_none_iff : preCheck cfg op pl = none ↔
    ¬ dimsLegal cfg pl = false ∧ ¬ scaleLegal op pl = false ∧ ¬ basesAligned op pl = false := by
  unfold preCheck
  split_ifs <;> simp_all

end

/-! ### The errors of a command by its stages (R311) -/

/-- No error that a check before dispatch can raise is raised after it. -/
theorem not_fitsPath_of_fits_none {e : Err} (h : errFitsPath e none = true) (p : PathCode) : ¬ FitsPath p e := by
  cases e
  case cmd | dim | scale | align => exact Bool.false_ne_true
  all_goals exact absurd h Bool.false_ne_true

/-- What a path raises fits the path, whether a check raises it or its rows do. -/
theorem runPath_error_fits {p : PathCode} {op : ScaleOp} {pl : Planes} {m : FilterMode} {s : State} {e : Err}
    (h : (runPath p op pl m s).2 = some e) : FitsPath p e := by
  rcases runPath_cases p op pl m s with ⟨e', hpost, hr⟩ | ⟨-, hr⟩ | ⟨w, -, -, hr⟩ | ⟨e', -, hwrites, hr⟩ <;>
    rw [hr] at h <;> cases h
  · exact postCheck_fails_fits hpost
  · exact pathWrites_error_fits hwrites

section
variable {op : ScaleOp} {f : FilterMode} {s : State} {e : Err}

theorem runCommand_err_iff_preCheck (he : errFitsPath e none = true) :
    (runCommand op f s).err = some e ↔ preCheck s.cfg op (commandPlanes s) = some e := by
  rcases hpre : preCheck s.cfg op (commandPlanes s) with _ | e'
  · rw [runCommand_of_preCheck hpre, endCommand_err]
    exact ⟨fun h => absurd (runPath_error_fits h) (not_fitsPath_of_fits_none he _), nofun⟩
  · rw [runCommand_of_preCheck_fails hpre]
    rfl

end

/-- Settles O18: before dispatch, the first check that fails; after it, errors of another kind only. -/
theorem preCheckErrorsExactly : Obligations.PreCheckErrorsExactly := by
  unfold Obligations.PreCheckErrorsExactly
  intro op f s pl badDim badScale badAlign
  have hdim : dimsLegal s.cfg pl = false ↔ badDim := dimsLegal_eq_false_iff
  have hscale : scaleLegal op pl = false ↔ badScale := scaleLegal_eq_false_iff
  have halign : basesAligned op pl = false ↔ badAlign := basesAligned_eq_false_iff
  rw [← hdim, ← hscale, ← halign]
  exact ⟨fun _ _ => commandPlanes_busy, commandPlanes_idle, preCheck_eq_none_iff, _, exec_commandInstr op f s,
    (runCommand_err_iff_preCheck rfl).trans preCheck_eq_dim_iff,
    (runCommand_err_iff_preCheck rfl).trans preCheck_eq_scale_iff,
    (runCommand_err_iff_preCheck rfl).trans preCheck_eq_align_iff⟩

/-! ### What a command leaves that a check or the identical-plane COPY ends (R300, R69) -/

/-- Only COPY has the short-circuit (R69). -/
theorem path_eq_copy_of_shortCircuit {cfg : Config} {op : ScaleOp} {pl : Planes} {p : PathCode}
    (hpost : postCheck cfg op pl p = .shortCircuit) : p = .copy := by
  unfold postCheck at hpost
  split_ifs at hpost with _ hshort
  obtain ⟨hcopy, -⟩ := copyShortCircuit_iff.1 hshort
  exact hcopy

section
variable {op : ScaleOp} {f : FilterMode} {s : State} (hund : undisturbed s = true)
include hund

theorem runCommand_of_postCheck_fails {e : Err} (hpre : preCheck s.cfg op (commandPlanes s) = none)
    (hpost : postCheck s.cfg op (commandPlanes s) (dispatch op (commandPlanes s) f).path = .fails e) :
    runCommand op f s =
      ended (some e) (some (dispatch op (commandPlanes s) f).path) (dispatch op (commandPlanes s) f).mode s := by
  rw [runCommand_of_preCheck hpre, runPath_of_fails (s := selected op f s) hpost]
  exact endCommand_undisturbed (some e) hund

theorem runCommand_of_shortCircuit (hpre : preCheck s.cfg op (commandPlanes s) = none)
    (hpost : postCheck s.cfg op (commandPlanes s) (dispatch op (commandPlanes s) f).path = .shortCircuit) :
    runCommand op f s = ended none (some .copy) (dispatch op (commandPlanes s) f).mode s := by
  rw [runCommand_of_preCheck hpre, runPath_of_shortCircuit (s := selected op f s) hpost,
    path_eq_copy_of_shortCircuit hpost]
  exact endCommand_undisturbed none hund

end

/-- Settles O19, by the check that ends the command. -/
theorem checkFailureReport : Obligations.CheckFailureReport := by
  unfold Obligations.CheckFailureReport
  intro op f s hund pl sel
  rw [exec_commandInstr]
  refine ⟨exec_selectInstr op pl f s, fun e hpre => ?_, fun hpre => ⟨fun e hpost => ?_, fun hpost => ?_⟩⟩
  · rw [runCommand_of_preCheck_fails hpre, raiseBeforeDispatch_undisturbed hund]
  · rw [runCommand_of_postCheck_fails hund hpre hpost]
  · rw [runCommand_of_shortCircuit hund hpre hpost]

/-! ### The calls of a P operation that are refused (R314, U3) -/

section
variable {p : PathCode} {op : ScaleOp} {pl : Planes} {m : FilterMode} {s : State}

/-- The planes of an exact-ratio path are not in its ratio. -/
theorem exactRatio_eq_false_iff (hsizes : LegalSizes pl) : exactRatio p pl = false ↔
    (p = .down34 ∧ ¬ (4 * pl.dstW.toInt = 3 * pl.srcW.toInt ∧ 4 * pl.dstH.toInt = 3 * srcHeight pl)) ∨
    (p = .down2 ∧ ¬ (2 * pl.dstW.toInt = pl.srcW.toInt ∧ 2 * pl.dstH.toInt = srcHeight pl)) ∨
    (p = .down38 ∧ ¬ (8 * pl.dstW.toInt = 3 * pl.srcW.toInt ∧ 8 * pl.dstH.toInt = 3 * srcHeight pl)) ∨
    (p = .down4 ∧ ¬ (4 * pl.dstW.toInt = pl.srcW.toInt ∧ 4 * pl.dstH.toInt = srcHeight pl)) ∨
    ((p = .up2Linear ∨ p = .up2Linear12) ∧ (pl.dstW.toInt + 1) / 2 ≠ pl.srcW.toInt) ∨
    ((p = .up2Bilinear ∨ p = .up2Bilinear12) ∧
      ¬ ((pl.dstH.toInt + 1) / 2 = srcHeight pl ∧ (pl.dstW.toInt + 1) / 2 = pl.srcW.toInt)) := by
  have hwidth : 1 ≤ pl.dstW.toInt := by
    rw [hsizes.dstWidth_eq]
    exact_mod_cast hsizes.dstWidth_pos
  have hheight : 1 ≤ pl.dstH.toInt := by
    rw [hsizes.dstHeight_eq]
    exact_mod_cast hsizes.dstHeight_pos
  rw [← Bool.not_eq_true, not_iff_comm]
  cases p
  case copy | vertical | box | bilinearUp | bilinearDown | simple => simp [exactRatio]
  case down34 => simp [exactRatio, ratio34]
  case down2 => simp [exactRatio, ratio2]
  case down38 => simp [exactRatio, ratio38]
  case down4 => simp [exactRatio, ratio4]
  case up2Linear | up2Linear12 => simp [exactRatio, doubles_iff hwidth]
  case up2Bilinear | up2Bilinear12 => simp [exactRatio, doubles_iff hwidth, doubles_iff hheight]

theorem modeDefined_eq_false_iff : modeDefined p m = false ↔
    (p = .down4 ∧ m ≠ .none ∧ m ≠ .box) ∨ ((p = .bilinearUp ∨ p = .bilinearDown) ∧ m ≠ .linear ∧ m ≠ .bilinear) := by
  cases p <;> simp [modeDefined]

theorem pathReady_eq_false_iff {cfg : Config} : pathReady p op pl m cfg = false ↔
    preCheck cfg op pl ≠ none ∨ exactRatio p pl = false ∨ modeDefined p m = false := by
  simp only [pathReady, Bool.and_eq_false_iff, decide_eq_false_iff_not, or_assoc, ne_eq]

theorem execPath_of_ready (h : pathReady p op pl m s.cfg = true) :
    ∃ t, execPath p op pl m s = .next t ∧ SameHostSide s t := by
  have hside := sameHostSide_runPath p op pl m s
  rw [execPath, if_pos h]
  rcases hr : runPath p op pl m s with ⟨t, _ | e⟩ <;> rw [hr] at hside
  · exact ⟨t, rfl, hside⟩
  · exact ⟨_, rfl, sameHostSide_trans hside (sameHostSide_endCommand _ _)⟩

theorem execPath_of_not_ready (h : pathReady p op pl m s.cfg = false) :
    execPath p op pl m s = .refused .pathPrecondition := by
  rw [execPath, if_neg (Bool.not_eq_true _ ▸ h)]

theorem execPath_refused_iff : execPath p op pl m s = .refused .pathPrecondition ↔ pathReady p op pl m s.cfg = false := by
  refine ⟨fun hrefused => ?_, execPath_of_not_ready⟩
  by_contra hready
  obtain ⟨t, hnext, -⟩ := execPath_of_ready (Bool.not_eq_false _ ▸ hready)
  cases hrefused.symm.trans hnext

/-- A failed check after dispatch sets PATH and ends the command, and does nothing else (R300, log 5). -/
theorem execPath_of_fails {e : Err} (hund : undisturbed s = true) (hready : pathReady p op pl m s.cfg = true)
    (hpost : postCheck s.cfg op pl p = .fails e) : execPath p op pl m s = .next { s with
      path := some p, done := true, err := some e, phase := .idle, scratchGen := s.scratchGen + 1 } := by
  rw [execPath, if_pos hready, runPath_of_fails hpost]
  exact congrArg _ (endCommand_undisturbed (s := setPath p s) (some e) hund)

end

/-- Settles O38, by whether the call is in the path's preconditions. -/
theorem pathsRefuseOutsidePreconditions : Obligations.PathsRefuseOutsidePreconditions := by
  unfold Obligations.PathsRefuseOutsidePreconditions
  intro p op pl m s hop w h wd hd otherRatio
  have htwelve : isTwelveBit p = true → op = .scale12 := by
    intro hp
    cases p
    case up2Linear12 => exact hop (.inl rfl)
    case up2Bilinear12 => exact hop (.inr rfl)
    all_goals exact absurd hp Bool.false_ne_true
  rw [exec_pathInstr htwelve]
  refine ⟨?_, fun hruns => ?_, fun e => execPath_of_fails⟩
  · rw [execPath_refused_iff, pathReady_eq_false_iff]
    exact or_congr_right' fun hpre => or_congr
      (exactRatio_eq_false_iff (legalSizes_of_preCheck (not_not.1 hpre))) modeDefined_eq_false_iff
  · rw [ne_eq, execPath_refused_iff, Bool.not_eq_false] at hruns
    exact execPath_of_ready hruns

end Sys2Proof.Proofs.CheckReports

/-! PROOFS. The two kinds of step and the reset input (R330 to R333, R340, R342): whose turn a step is, what the reset input
leaves of a machine, and what holds of the state after reset. -/

namespace Sys2Proof.Proofs.StepsAndReset

open Sys2Proof Sys2Proof.Machine Sys2Proof.Proofs.KernelAnswers Sys2Proof.Proofs.RegisterBlock
  Sys2Proof.Proofs.StateInvariant Sys2Proof.Proofs.HostMemory Sys2Proof.Proofs.CommandWords
  Sys2Proof.Proofs.ReservedCommands Sys2Proof.Proofs.RepeatableCommands Sys2Proof.Proofs.CheckReports

/-! ### Whose turn it is (R333, R340, R342) -/

section
variable {s u : State}

theorem engineTurn_of_nil (h : s.pending = []) : engineTurn s s := .inl ⟨h, rfl⟩

theorem engineTurn_of_cons {rest : List Event} (h : s.pending = .engine :: rest) :
    engineTurn s { s with pending := rest } := .inr ⟨rest, h, rfl⟩

theorem engineStep_of_decode {c : Latched} {i : Instr} (hdec : decode (latchedWord c) = .ok i) (s : State) :
    engineStep c s = exec i s := by
  rw [engineStep, hdec]

theorem step_of_decode {c : Latched} {d : Bool} {i : Instr} (hbusy : s.phase = .busy c d)
    (hdec : decode (latchedWord c) = .ok i) (hturn : engineTurn s u) : step s = exec i u :=
  (step_busy hbusy hturn).trans (engineStep_of_decode hdec u)

end

/-- Settles O4: the engine's turn comes with an empty list or at its head, and is a running command's or an Idle
machine's; every other turn is the host's. -/
theorem stepRunsTheDecodedInstruction : Obligations.StepRunsTheDecodedInstruction := by
  unfold Obligations.StepRunsTheDecodedInstruction
  intro s
  refine ⟨fun c d i hbusy hdec => ⟨fun hnil => ?_, fun rest hcons => ?_⟩, fun a rest hhost => step_host hhost,
    fun hidle => ⟨fun hnil => ?_, fun rest hcons => ?_⟩⟩
  · exact step_of_decode hbusy hdec (engineTurn_of_nil hnil)
  · exact step_of_decode hbusy hdec (engineTurn_of_cons hcons)
  · exact step_idle hidle (engineTurn_of_nil hnil)
  · exact step_idle hidle (engineTurn_of_cons hcons)

/-! ### The reset input (R330, R332) -/

theorem statusWord_eq_zero {s : State} (hbusy : isBusy s = false) (hdone : s.done = false) (herr : s.err = none)
    (hpath : s.path = none) (hfilter : s.effFilter = .none) : statusWord s = 0#32 := by
  rw [statusWord, hbusy, hdone, herr, hpath, hfilter]
  rfl

@[simp] theorem readReg_resetInput (r : Reg) (s : State) : readReg r (resetInput s) = 0#32 := by
  cases r
  case status => exact statusWord_eq_zero rfl rfl rfl rfl rfl
  all_goals rfl

@[simp] theorem resetInput_phase (s : State) : (resetInput s).phase = .idle := rfl

@[simp] theorem resetInput_cfg (s : State) : (resetInput s).cfg = s.cfg := by
  unfold resetInput
  split
  · exact scrambleLatched_cfg _ s
  · rfl

@[simp] theorem resetInput_scratchGen (s : State) : (resetInput s).scratchGen = s.scratchGen + 1 := by
  unfold resetInput
  split
  · exact congrArg (· + 1) (scrambleLatched_scratchGen _ s)
  · rfl

theorem resetInput_mem_idle {s : State} (h : s.phase = .idle) : (resetInput s).mem = s.mem := by
  simp [resetInput, h]

theorem resetInput_mem_busy {s : State} {c : Latched} {d : Bool} (h : s.phase = .busy c d) :
    (resetInput s).mem = (scrambleLatched c s).mem := by
  simp [resetInput, h]

/-- Settles O9: of memory, the reset input changes what abandoning the running command does. -/
theorem resetInputEffect : Obligations.ResetInputEffect := by
  unfold Obligations.ResetInputEffect
  intro s hwf
  refine ⟨resetInput s, rfl, fun r => readReg_resetInput r s, resetInput_phase s, resetInput_cfg s, ?_,
    resetInput_mem_idle, fun c d hbusy => ⟨latchedScaleOp_iff_decode c, ?_⟩⟩
  · rw [resetInput_scratchGen]
    exact Nat.succ_ne_self _
  · rw [resetInput_mem_busy hbusy]
    refine ⟨fun hnone => by rw [scrambleLatched_none hnone], fun op hop a => ?_⟩
    rw [scrambleLatched_some hop]
    exact ⟨read_scrambleDst_other op c.planes s, read_scrambleDst_mem op c.planes hwf⟩

/-! ### The state after reset (R331) -/

@[simp] theorem readReg_reset (r : Reg) : readReg r State.reset = 0#32 := by cases r <;> rfl

theorem readOffset_reset (off : Nat) : readOffset off State.reset = 0#32 := by
  unfold readOffset
  split
  · exact readReg_reset _
  · rfl

/-- The registers of the reset state are no legal dimensions: each is 0 (R302, R331). -/
theorem preCheck_reset (op : ScaleOp) : preCheck State.reset.cfg op (registerPlanes State.reset) = some .dim :=
  preCheck_eq_dim_iff.2 (by decide)

/-- A START of an instruction's word on an Idle machine with nothing pending runs the instruction next (R32, R342). -/
theorem start_then_step {s : State} (hidle : s.phase = .idle) (hnil : s.pending = []) {i : Instr} {w : Word}
    (henc : encode i = some w) :
    hostStep (.regWrite s.cfg.regBase w) s = .next (startCommand w s) ∧
      step (startCommand w s) = exec i (startCommand w s) := by
  have hdec : decode w = .ok i := (encode_eq_some_iff i w).1 henc
  obtain ⟨hstart, -⟩ := (decode_eq_ok_iff w i).1 hdec
  refine ⟨(hostStep_write_cmd_idle hidle w).trans (congrArg _ (if_pos hstart)), ?_⟩
  refine step_of_decode (c := latch w s) (d := false) rfl ?_ (engineTurn_of_nil hnil)
  rwa [latchedWord_latch hstart]

/-- A command whose check before dispatch fails, started on any machine, ends with that error alone (R300). -/
theorem exec_startCommand_of_preCheck {s : State} {op : ScaleOp} {e : Err}
    (hpre : preCheck s.cfg op (registerPlanes s) = some e) (f : FilterMode) (w : Word) :
    exec (commandInstr op f) (startCommand w s) = .next (ended (some e) none .none (startCommand w s)) := by
  rw [exec_commandInstr, runCommand_of_preCheck_fails (s := startCommand w s) hpre]
  exact congrArg _ (raiseBeforeDispatch_undisturbed (undisturbed_busy rfl) e)

/-- Settles O10: every register is 0, and so are the latched dimensions, which the first check of the command refuses. -/
theorem resetStateReadsZero : Obligations.ResetStateReadsZero := by
  unfold Obligations.ResetStateReadsZero
  refine ⟨fun off _ => readOffset_reset off, rfl, fun off hoff hal => ?_, fun op f w henc => ?_⟩
  · rw [hostStep_regRead_at State.reset hoff hal, readOffset_reset]
  · obtain ⟨hwrite, hstep⟩ := start_then_step (s := State.reset) rfl rfl henc
    rw [exec_startCommand_of_preCheck (preCheck_reset op) f w] at hstep
    exact ⟨_, _, hwrite, hstep, rfl, rfl, rfl, rfl⟩

/-- Settles O13: the reset state reports what the reset input leaves, of which the invariant is known. -/
theorem invAtReset : Obligations.InvAtReset :=
  inv_of_sameReport (inv_resetInput (s := State.reset) rfl) rfl ⟨rfl, rfl, rfl, rfl, rfl, rfl⟩

end Sys2Proof.Proofs.StepsAndReset
